-- ==== Sys2Proof/Word.lean ====
section
/-!
DEFINITION. The value types of 10_state.md rule R17: bytes, 5-bit sequence numbers, 3-bit commands, and byte sequences.
-/

namespace Sys2Proof

/-- R17 `Byte`: an unsigned 8-bit number. -/
abbrev Byte := BitVec 8

/-- R17 `Seq`: an unsigned 5-bit number; arithmetic on it is modulo 32. -/
abbrev Seq := BitVec 5

/-- R17 `Cmd`: an unsigned 3-bit number; also R17's `Kind`, the command of a held frame. -/
abbrev Cmd := BitVec 3

/-- R17 `Payload`, `Frame` and `RawFrame` are byte sequences; their length bounds are checks
(`WellFormed.lean`, `Safety.lean`), not part of the type. -/
abbrev Bytes := List Byte

end Sys2Proof
end

