-- ==== Sys2Proof/Config.lean ====
section
/-!
DEFINITION. The implementation parameters of 00_scope.md rule R7, the environment's choices (20_memory.md rule
R45, 43_transmit.md rule R96), and the free values of the model: opaque constants, about whose values nothing
can be proved.
-/

namespace Sys2Proof

/-- `MTU` (R7): bytes in the largest frame, header included. -/
def mtu : Nat := 256
/-- `HDR` (R7): header bytes per frame. -/
def hdr : Nat := 1
/-- `MAX_PAYLOAD` (R7): `MTU - HDR`. -/
def maxPayload : Nat := mtu - hdr
/-- `SEQ_BITS` (R7); `Seq` is `BitVec seqBits`. -/
def seqBits : Nat := 5
/-- `SEQ_MOD` (R7). -/
def seqMod : Nat := 2 ^ seqBits
/-- `CMD_BITS` (R7); `Cmd` is `BitVec cmdBits`. -/
def cmdBits : Nat := 3

/-- The parameters of R7 that a model may set, as one configuration record. It is fixed for the life of an
instance (R33): `Machine.State` carries it and no step writes it (log 6). -/
structure Config where
  /-- `W`: the most outstanding DATA frames at once. -/
  w : Nat
  /-- `TXQ_DEPTH`: slots in the outbound payload queue. -/
  txqDepth : Nat
  /-- `RXQ_DEPTH`: slots in the receive queue. -/
  rxqDepth : Nat
  /-- `MAX_RETX`: retransmissions allowed per DATA frame before escalation. -/
  maxRetx : Nat
  /-- `RESET_MAX_RETRY`: RESET_REQ re-sends allowed before connection loss. -/
  resetMaxRetry : Nat
  /-- `RTO_TICKS`: the retransmission timeout. -/
  rtoTicks : Nat
  /-- `RESET_RTO_TICKS`: the reset-handshake timeout. -/
  resetRtoTicks : Nat
  /-- `BUSY_WAIT_TICKS`: the bounded wait for the ready signal. -/
  busyWaitTicks : Nat
  deriving DecidableEq, Repr

/-- The allowed ranges of R7. -/
def Config.legal (c : Config) : Bool :=
  decide (1 ≤ c.w) && decide (c.w ≤ 15) && decide (1 ≤ c.txqDepth) && decide (1 ≤ c.rxqDepth) &&
    decide (1 ≤ c.maxRetx) && decide (c.maxRetx ≤ 8) && decide (1 ≤ c.rtoTicks) &&
    decide (1 ≤ c.resetRtoTicks) && decide (1 ≤ c.busyWaitTicks)

/-- The three parameters R7 calls OPEN. -/
inductive OpenParam where
  | rtoTicks
  | resetRtoTicks
  | busyWaitTicks
  deriving DecidableEq, Repr

/-- FREE VALUE (log 6). One less than the timeout an implementation takes for an OPEN parameter; R7 gives only the
range "≥ 1". -/
opaque Config.openTicks : OpenParam → Nat

/-- The reference values of R7; the OPEN parameters stay unknown (log 6). -/
def Config.reference : Config where
  w := 1
  txqDepth := 4
  rxqDepth := 4
  maxRetx := 5
  resetMaxRetry := 5
  rtoTicks := Config.openTicks .rtoTicks + 1
  resetRtoTicks := Config.openTicks .resetRtoTicks + 1
  busyWaitTicks := Config.openTicks .busyWaitTicks + 1

/-- The driver's answer to one send attempt (R96). -/
inductive DriverReply where
  | ok
  | busy
  deriving DecidableEq, Repr, Inhabited

/-- One environment choice: which agent takes the next step, with which input, and which answer the driver gives
if that step makes an attempt (R45, R64, R96). Named as in 30_encoding.md rule R67. -/
inductive Turn where
  /-- ENV calls SUBMIT with a payload (R94). -/
  | submit (p : Bytes)
  /-- ENV takes the SUBMIT step of the `i`-th caller still blocked at the port (R94; log 4). -/
  | resume (i : Nat)
  /-- ENV delivers an inbound frame (R82). -/
  | rxFrame (b : Bytes)
  /-- ENV pulses TX_READY (R95). -/
  | txReady
  /-- ENV pulses TICK (R125). -/
  | tick
  /-- ENV pulses INIT (R109). -/
  | init
  /-- RXS takes its step (R83). -/
  | rxs
  /-- TXS takes its step (R99); the driver answers `r` if it makes an attempt. -/
  | txs (r : DriverReply)
  deriving DecidableEq, Repr, Inhabited

/-- FREE VALUE (log 2). The environment's choice at the `n`-th step, where State's script does not fix it: any agent,
any input, any driver reply (I14, I15). -/
opaque Config.freeTurn : Nat → Turn

/-- FREE VALUE (log 9). Which of several entries with one sequence number `Accepted` restarts (R97 "some e") at the
`n`-th step. -/
opaque Config.freeEntry : Nat → Nat

end Sys2Proof
end

