-- ==== Sys2Proof/Syntax.lean ====
section
/-!
DEFINITION. The frames the block exchanges with its peer: one constructor per row of the opcode map of
30_encoding.md rule R61.
-/

namespace Sys2Proof

/-- A decoded frame. Every frame carries a sequence field and the bytes after its header (R54); what they mean
depends on the command (R59). The control commands ignore their payload, and the reset commands their
sequence field too, on receipt (R60); they are operands all the same, so that no bit of a frame is lost (R72). -/
inductive Instr where
  /-- `sssss000` (R61): `seq` is the frame's own number. -/
  | data (seq : Seq) (payload : Bytes)
  /-- `sssss001` (R61): `seq` is the number acknowledged cumulatively. -/
  | ack (seq : Seq) (payload : Bytes)
  /-- `sssss010` (R61). -/
  | resetReq (seq : Seq) (payload : Bytes)
  /-- `sssss011` (R61). -/
  | resetAck (seq : Seq) (payload : Bytes)
  /-- `sssss100`, reserved (R58). -/
  | reserved4 (seq : Seq) (payload : Bytes)
  /-- `sssss101`, reserved (R58). -/
  | reserved5 (seq : Seq) (payload : Bytes)
  /-- `sssss110`, reserved (R58). -/
  | reserved6 (seq : Seq) (payload : Bytes)
  /-- `sssss111`, reserved (R58). -/
  | reserved7 (seq : Seq) (payload : Bytes)
  deriving DecidableEq, Repr

/-- The sequence field of a frame. -/
def Instr.seq : Instr → Seq
  | .data s _ => s
  | .ack s _ => s
  | .resetReq s _ => s
  | .resetAck s _ => s
  | .reserved4 s _ => s
  | .reserved5 s _ => s
  | .reserved6 s _ => s
  | .reserved7 s _ => s

/-- The bytes of a frame after its header. -/
def Instr.payload : Instr → Bytes
  | .data _ p => p
  | .ack _ p => p
  | .resetReq _ p => p
  | .resetAck _ p => p
  | .reserved4 _ p => p
  | .reserved5 _ p => p
  | .reserved6 _ p => p
  | .reserved7 _ p => p

end Sys2Proof
end

