-- ==== Sys2Proof/WellFormed.lean ====
section
/-!
DEFINITION. When a frame can be encoded: its payload fits in one frame (30_encoding.md rule R54).
-/

namespace Sys2Proof

/-- The frame's payload is 0 to `MAX_PAYLOAD` bytes long (R54, R69). The sequence field and the command need no
check: their types admit exactly the values of R55. -/
def Instr.wellFormed (i : Instr) : Bool :=
  decide (i.payload.length ≤ maxPayload)

end Sys2Proof
end

