-- ==== Sys2Proof/Decode.lean ====
section
/-!
DEFINITION. The frame codec (40_codec.md): the header byte of 30_encoding.md rules R55 and R57, decoding of any byte
sequence, the opcode map of R61, and the encoder.
-/

namespace Sys2Proof

/-- R57: the command values (spec decision D2; log 14). -/
def cmdData : Cmd := 0
/-- R57. -/
def cmdAck : Cmd := 1
/-- R57. -/
def cmdResetReq : Cmd := 2
/-- R57. -/
def cmdResetAck : Cmd := 3

/-- R55: the header byte, sequence number in bits 7:3 and command in bits 2:0 (spec decision D1; log 14). -/
def headerByte (cmd : Cmd) (seq : Seq) : Byte := seq ++ cmd

/-- R55: `seq = h[7:3]`. -/
def headerSeq (h : Byte) : Seq := h.extractLsb' 3 5

/-- R55: `cmd = h[2:0]`. -/
def headerCmd (h : Byte) : Cmd := h.extractLsb' 0 3

/-- The one way decoding fails. -/
inductive DecodeError where
  /-- R70: the input is empty. -/
  | malformedFrame
  deriving DecidableEq, Repr

/-- The one way encoding fails. -/
inductive EncodeError where
  /-- R69: the payload has `len` bytes, more than `MAX_PAYLOAD`. -/
  | oversizeFrame (len : Nat)
  deriving DecidableEq, Repr

/-- R70 `decode(bytes) -> (cmd, seq, payload)`. -/
def decodeFrame : Bytes → Except DecodeError (Cmd × Seq × Bytes)
  | [] => .error .malformedFrame
  | h :: p => .ok (headerCmd h, headerSeq h, p)

/-- The frame of a command value: R83's case split, every one of the eight values named. -/
def Instr.ofFields (cmd : Cmd) (seq : Seq) (p : Bytes) : Instr :=
  if cmd = cmdData then .data seq p
  else if cmd = cmdAck then .ack seq p
  else if cmd = cmdResetReq then .resetReq seq p
  else if cmd = cmdResetAck then .resetAck seq p
  else if cmd = 4 then .reserved4 seq p
  else if cmd = 5 then .reserved5 seq p
  else if cmd = 6 then .reserved6 seq p
  else .reserved7 seq p

/-- The decoder, total on every byte sequence: R70 and then R61's row. -/
def decode (b : Bytes) : Except DecodeError Instr :=
  match decodeFrame b with
  | .error e => .error e
  | .ok (cmd, seq, p) => .ok (Instr.ofFields cmd seq p)

/-- The command of each row of R61. -/
def Instr.cmd : Instr → Cmd
  | .data _ _ => cmdData
  | .ack _ _ => cmdAck
  | .resetReq _ _ => cmdResetReq
  | .resetAck _ _ => cmdResetAck
  | .reserved4 _ _ => 4
  | .reserved5 _ _ => 5
  | .reserved6 _ _ => 6
  | .reserved7 _ _ => 7

/-- R69 `encode(cmd, seq, payload) -> Frame`. -/
def encodeFrame (cmd : Cmd) (seq : Seq) (p : Bytes) : Except EncodeError Bytes :=
  if maxPayload < p.length then .error (.oversizeFrame p.length)
  else .ok (headerByte cmd seq :: p)

/-- The bytes of a frame, header first (R42). -/
def encode (i : Instr) : Except EncodeError Bytes :=
  encodeFrame i.cmd i.seq i.payload

/-- One row of the opcode map R61. -/
structure OpcodeRow where
  matchBits : Byte
  mask : Byte
  cmd : Cmd
  deriving DecidableEq, Repr

/-- The row's pattern matches the header byte. -/
def OpcodeRow.hits (r : OpcodeRow) (h : Byte) : Bool := h &&& r.mask == r.matchBits

/-- The opcode map of R61, row by row. -/
def opcodeMap : List OpcodeRow :=
  [ { matchBits := 0x00, mask := 0x07, cmd := 0 },
    { matchBits := 0x01, mask := 0x07, cmd := 1 },
    { matchBits := 0x02, mask := 0x07, cmd := 2 },
    { matchBits := 0x03, mask := 0x07, cmd := 3 },
    { matchBits := 0x04, mask := 0x07, cmd := 4 },
    { matchBits := 0x05, mask := 0x07, cmd := 5 },
    { matchBits := 0x06, mask := 0x07, cmd := 6 },
    { matchBits := 0x07, mask := 0x07, cmd := 7 } ]

/-- The bytes of a table word: `nbits` bits of `w`, bits 7:0 the header, the next eight bits the first payload
byte, and so on (R42; log 13). -/
def bytesOfWord (nbits w : Nat) : Bytes :=
  (List.range (nbits / 8)).map fun k => BitVec.ofNat 8 (w >>> (8 * k))

/-- What the decoder reads from the instruction whose bits are `w`, numbered as the opcode table numbers them. The
frame has exactly `nbits / 8` bytes: a frame's length is the transport's (R56; log 13). -/
def decodeTableWord (nbits w : Nat) : Option Instr :=
  match decode (bytesOfWord nbits w) with
  | .ok i => some i
  | .error _ => none

end Sys2Proof
end

