-- ==== Sys2Proof/Machine/State.lean ====
section
/-!
DEFINITION. The state of the block (10_state.md), its output events (30_encoding.md rule R65), the reasons a step
can stop, and the state after power-on reset (70_reset_and_hazards.md rule R132).
-/

namespace Sys2Proof.Machine

/-- R18: the link states `DISC`, `AWAIT` and `EST`. -/
inductive Link where
  | disc
  | await
  | est
  deriving DecidableEq, Repr

/-- R28: an outstanding frame. -/
structure Entry where
  seq : Seq
  payload : Bytes
  /-- Re-sends so far. -/
  retx : Nat
  /-- TICKs since the driver last accepted this frame. -/
  age : Nat
  deriving DecidableEq, Repr

/-- R30: the frame the driver last refused, with the command and sequence fields of its header. -/
structure Held where
  frame : Bytes
  kind : Cmd
  seq : Seq
  deriving DecidableEq, Repr

/-- R120: the log codes by name; their numbers are in `Flags.lean`. -/
inductive LogCode where
  | malformedFrame
  | unknownCmd
  | busyWaitTimeout
  | retxCeiling
  | resetCeiling
  deriving DecidableEq, Repr

/-- R65: the output events. -/
inductive Event where
  /-- `WIRE_TX(frame, r)`: one driver send attempt with the driver's reply. -/
  | wireTx (frame : Bytes) (r : DriverReply)
  /-- `DELIVER(payload)`. -/
  | deliver (payload : Bytes)
  /-- `LOG(code)`. -/
  | log (code : LogCode)
  /-- `CONN_LOST`. -/
  | connLost
  /-- `REJECT(OversizeFrame)`. -/
  | rejectOversizeFrame
  deriving DecidableEq, Repr

/-- R64: the replies of the SUBMIT port. -/
inductive SubmitReply where
  | accepted
  | oversizeFrame
  deriving DecidableEq, Repr

/-- The whole state. The fields from `link` to `readySeen` are the state elements of 10_state.md, `cfg` is the
configuration of R7, `trace` and `submitReply` are output ports (R64, R65), and the last three are the model's own. -/
structure State where
  /-- R7, R33: the configuration; no step writes it (log 6). -/
  cfg : Config
  /-- R18. -/
  link : Link
  /-- R19: a RESET_REQ frame is due to be sent. -/
  reqPending : Bool
  /-- R20: TICKs since the last RESET_REQ was handed to the driver and accepted. -/
  resetAge : Nat
  /-- R21: RESET_REQ re-sends in the current handshake. -/
  resetRetry : Nat
  /-- R22: a RESET_ACK frame is due to be sent. -/
  rstAckPending : Bool
  /-- R23: the receive queue, head first. -/
  rxq : List Bytes
  /-- R24: the sequence number expected next. -/
  rxCursor : Seq
  /-- R25: the number outbound ACK frames carry. -/
  lastDeliveredSeq : Seq
  /-- R26: an ACK frame is due to be sent. -/
  ackPending : Bool
  /-- R27: the outbound payload queue, head first. -/
  txq : List Bytes
  /-- R28: the outstanding frames, oldest first. -/
  ofq : List Entry
  /-- R29: the number the next new DATA frame takes. -/
  nextTxSeq : Seq
  /-- R30: the held frame. -/
  hold : Option Held
  /-- R31: TICKs since the last `Busy` answer. -/
  waitAge : Nat
  /-- R32: the ready signal came while a frame is held. -/
  readySeen : Bool
  /-- R65: the events emitted so far, in step order (log 1). -/
  trace : List Event
  /-- R64: the reply of the last SUBMIT step taken (log 5). -/
  submitReply : Option SubmitReply
  /-- The model's own: payloads of callers blocked in SUBMIT, oldest first (R94; log 4). -/
  waiting : List Bytes
  /-- The model's own: the environment's choices already fixed, next first (R45, R67; log 2). -/
  script : List Turn
  /-- The model's own: steps taken; the argument of the free values (log 2, log 9). -/
  steps : Nat
  deriving DecidableEq, Repr

/-- Why a step stops with a fault. The block has no fault state (R121). -/
inductive Fault where
  /-- Raised by a TX step that would encode a payload of more than `MAX_PAYLOAD` bytes (`Machine.sendEncoded`). SAFE: R102
  says encode cannot fail there, since SUBMIT refuses such payloads (R94), so no run reaches it (log 8). -/
  | oversizeFrame
  deriving DecidableEq, Repr

/-- Why a step is refused. -/
inductive Refusal where
  /-- Raised by an arm of `exec` whose instruction has no meaning yet; no arm does. SAFE: nothing is claimed of it. -/
  | notModelled (mnemonic : String)
  /-- Raised by `step` on a configuration outside the ranges of R7. SAFE: 93_implementation_defined.md I3 says that such a
  configuration is refused (log 7). -/
  | illegalConfiguration
  deriving DecidableEq, Repr

/-- R132 with R35's first column: power-on reset of a block with configuration `c`. The spec states the value of
every element; the output ports are empty and the model's own fields start empty (log 18). -/
def State.powerOn (c : Config) : State where
  cfg := c
  link := .disc
  reqPending := false
  resetAge := 0
  resetRetry := 0
  rstAckPending := false
  rxq := []
  rxCursor := 0
  lastDeliveredSeq := 31
  ackPending := false
  txq := []
  ofq := []
  nextTxSeq := 0
  hold := none
  waitAge := 0
  readySeen := false
  trace := []
  submitReply := none
  waiting := []
  script := []
  steps := 0

/-- Power-on reset with the reference configuration of R7. -/
def State.reset : State := State.powerOn Config.reference

end Sys2Proof.Machine
end

