-- ==== Sys2Proof/Machine/Operands.lean ====
section
/-!
DEFINITION. The modulo-32 sequence comparator (41_seqnum.md): pure functions on sequence numbers.
-/

namespace Sys2Proof.Machine

/-- R73. -/
def seqInc (a : Seq) : Seq := a + 1

/-- R74: the forward distance from `b` to `a`, 0..31. -/
def seqDiff (a b : Seq) : Nat := (a - b).toNat

/-- R75: the signed difference in a 5-bit space, `sext_5` of R74's distance. -/
def sdiff5 (a b : Seq) : Int :=
  if seqDiff a b < 16 then (seqDiff a b : Int) else (seqDiff a b : Int) - 32

/-- R76: `a` is older than `b`. -/
def seqLt (a b : Seq) : Bool := decide (sdiff5 a b < 0)

/-- R77: `a` is `b` or older. -/
def seqLe (a b : Seq) : Bool := decide (sdiff5 a b ≤ 0)

/-- R78. -/
def seqEq (a b : Seq) : Bool := a == b

end Sys2Proof.Machine
end

