-- ==== Sys2Proof/Machine/Flags.lean ====
section
/-!
DEFINITION. What the block shows and tests of its state: the LINK_STATE level (R63), the log code numbers (R120),
full queues, expired timers, and when the RX step is enabled (R83).
-/

namespace Sys2Proof.Machine

/-- R63: the encoding of `link`. -/
def Link.encode : Link → BitVec 2
  | .disc => 0b00
  | .await => 0b01
  | .est => 0b10

/-- R34: the LINK_STATE level output. -/
def State.linkState (s : State) : BitVec 2 := s.link.encode

/-- R120: the numbers of the log codes. -/
def LogCode.number : LogCode → Nat
  | .malformedFrame => 1
  | .unknownCmd => 2
  | .busyWaitTimeout => 3
  | .retxCeiling => 4
  | .resetCeiling => 5

/-- R10 `Full(TXQ)`: `Count(TXQ)` is the capacity. -/
def State.txqFull (s : State) : Bool := decide (s.txq.length = s.cfg.txqDepth)

/-- R10 `Full(RXQ)`: `Count(RXQ)` is the capacity. -/
def State.rxqFull (s : State) : Bool := decide (s.rxq.length = s.cfg.rxqDepth)

/-- R83: the RX step is enabled exactly when `RXQ` is not empty. -/
def State.rxEnabled (s : State) : Bool := !s.rxq.isEmpty

/-- R101: the entry's retransmission timer has run out. -/
def State.expired (s : State) (e : Entry) : Bool := e.age == s.cfg.rtoTicks

/-- R101: the first (oldest) entry whose timer has run out. -/
def State.expiredEntry (s : State) : Option Entry := s.ofq.find? s.expired

/-- R112: the held frame is a RESET_REQ. -/
def State.holdsResetReq (s : State) : Bool :=
  match s.hold with
  | some h => h.kind == cmdResetReq
  | none => false

end Sys2Proof.Machine
end

