-- ==== Sys2Proof/Machine/Ops.lean ====
section
/-!
DEFINITION. The operations several rules share: emitting an event (R10), the reset actions (R108 to R112), retire
(R105), driver acceptance (R97) and the send primitive (R96). The block has no exception to take or return from (R122):
the response to each error is part of the rule that detects it (R119).
-/

namespace Sys2Proof.Machine

/-- R10 `emit`. -/
def emit (e : Event) (s : State) : State :=
  { s with trace := s.trace ++ [e] }

/-- R108 `ClearSeqState()`. -/
def clearSeqState (s : State) : State :=
  { s with
    rxCursor := 0, lastDeliveredSeq := 31, ackPending := false,
    ofq := [], nextTxSeq := 0,
    hold := none, waitAge := 0, readySeen := false,
    reqPending := false, rstAckPending := false, resetAge := 0, resetRetry := 0 }

/-- R110 `LocalReset()`. -/
def localReset (s : State) : State :=
  { clearSeqState s with link := .await, reqPending := true }

/-- R111 `PeerReset()`. -/
def peerReset (s : State) : State :=
  { clearSeqState s with rstAckPending := true, link := .est }

/-- R112: the part of completion that drops a RESET_REQ still held. -/
def dropHold (s : State) : State :=
  { s with hold := none, waitAge := 0, readySeen := false }

/-- R112: the part of completion that ends the handshake. -/
def establish (s : State) : State :=
  { s with link := .est, reqPending := false, resetAge := 0, resetRetry := 0 }

/-- R112 `ResetComplete()`. -/
def resetComplete (s : State) : State :=
  if s.holdsResetReq then dropHold (establish s) else establish s

/-- R105 `Retire(a)`. -/
def retire (a : Seq) (s : State) : State :=
  { s with ofq := s.ofq.filter fun e => !seqLe e.seq a }

/-- `f` applied to the `k`-th element (from 0) that `p` holds of; every other element unchanged. -/
def updateNth (p : Entry → Bool) (f : Entry → Entry) : Nat → List Entry → List Entry
  | _, [] => []
  | k, e :: es =>
    if p e then
      match k with
      | 0 => f e :: es
      | k + 1 => e :: updateNth p f k es
    else e :: updateNth p f k es

/-- Which of `n` entries with the accepted number R97's "some e" is: the only one, or, where there are several, a free
choice (log 9). -/
def acceptedIndex (n draw : Nat) : Nat :=
  if n ≤ 1 then 0 else draw % n

/-- R97: the accepted frame's entry counts its age from 0 again. -/
def restartAge (seq : Seq) (draw : Nat) (l : List Entry) : List Entry :=
  updateNth (fun e => e.seq == seq) (fun e => { e with age := 0 })
    (acceptedIndex (l.countP fun e => e.seq == seq) draw) l

/-- R97 `Accepted(kind, seq)`. -/
def accepted (kind : Cmd) (seq : Seq) (s : State) : State :=
  if kind = cmdData then { s with ofq := restartAge seq (Config.freeEntry s.steps) s.ofq }
  else if kind = cmdResetReq ∧ s.link = .await then { s with resetAge := 0 }
  else s

/-- R96, R98: one attempt at the driver and what every attempt restarts. -/
def attempt (frame : Bytes) (r : DriverReply) (s : State) : State :=
  { emit (.wireTx frame r) s with waitAge := 0, readySeen := false }

/-- R96 `Send(frame, kind, seq)`, the driver answering `r`. -/
def send (frame : Bytes) (kind : Cmd) (seq : Seq) (r : DriverReply) (s : State) : State :=
  match r with
  | .ok => accepted kind seq (attempt frame r s)
  | .busy => { attempt frame r s with hold := some ⟨frame, kind, seq⟩ }

/-- `Send(encode(cmd, seq, p), cmd, seq)`, the form every TX action uses (R100, R102, R104, R113, R114). -/
def sendEncoded (cmd : Cmd) (seq : Seq) (p : Bytes) (r : DriverReply) (s : State) :
    Host.Outcome State Fault Refusal :=
  match encodeFrame cmd seq p with
  | .ok frame => .next (send frame cmd seq r s)
  | .error _ => .fault .oversizeFrame

end Sys2Proof.Machine
end

