-- ==== Sys2Proof/Machine/Receive.lean ====
section
/-!
DEFINITION. The receive sequencer's command rules (42_receive.md R84 to R92): the meaning of each frame once it is
popped from RXQ and decoded.
-/

namespace Sys2Proof.Machine

/-- R86: in-order DATA. -/
def dataInOrder (seq : Seq) (payload : Bytes) (s : State) : State :=
  { emit (.deliver payload) s with
    rxCursor := seqInc seq, lastDeliveredSeq := seq, ackPending := true }

/-- R87: duplicate DATA. -/
def dataDuplicate (s : State) : State :=
  { s with ackPending := true }

/-- R88: gap DATA; the frame is discarded. -/
def dataGap (s : State) : State := s

/-- R85: DATA, sorted three ways by the comparator. -/
def receiveData (seq : Seq) (payload : Bytes) (s : State) : State :=
  if s.link ≠ .est then s
  else if sdiff5 seq s.rxCursor = 0 then dataInOrder seq payload s
  else if sdiff5 seq s.rxCursor < 0 then dataDuplicate s
  else dataGap s

/-- R89: ACK. -/
def receiveAck (seq : Seq) (s : State) : State :=
  if s.link ≠ .est then s else retire seq s

/-- R91: RESET_ACK. -/
def receiveResetAck (s : State) : State :=
  if s.link = .await then resetComplete s else s

/-- R92: a reserved command is dropped and logged. -/
def dropUnknown (s : State) : State := emit (.log .unknownCmd) s

/-- R84: a malformed frame is dropped and logged. -/
def dropMalformed (s : State) : State := emit (.log .malformedFrame) s

/-- DATA (R85). -/
def execData (seq : Seq) (payload : Bytes) (s : State) : Host.Outcome State Fault Refusal :=
  .next (receiveData seq payload s)

/-- ACK (R89); any payload bytes are ignored (R60). -/
def execAck (seq : Seq) (_payload : Bytes) (s : State) : Host.Outcome State Fault Refusal :=
  .next (receiveAck seq s)

/-- RESET_REQ (R90), in any link state; sequence field and payload are ignored (R59, R60). -/
def execResetReq (_seq : Seq) (_payload : Bytes) (s : State) : Host.Outcome State Fault Refusal :=
  .next (peerReset s)

/-- RESET_ACK (R91); sequence field and payload are ignored (R59, R60). -/
def execResetAck (_seq : Seq) (_payload : Bytes) (s : State) : Host.Outcome State Fault Refusal :=
  .next (receiveResetAck s)

/-- Command 4, reserved (R92). -/
def execReserved4 (_seq : Seq) (_payload : Bytes) (s : State) : Host.Outcome State Fault Refusal :=
  .next (dropUnknown s)

/-- Command 5, reserved (R92). -/
def execReserved5 (_seq : Seq) (_payload : Bytes) (s : State) : Host.Outcome State Fault Refusal :=
  .next (dropUnknown s)

/-- Command 6, reserved (R92). -/
def execReserved6 (_seq : Seq) (_payload : Bytes) (s : State) : Host.Outcome State Fault Refusal :=
  .next (dropUnknown s)

/-- Command 7, reserved (R92). -/
def execReserved7 (_seq : Seq) (_payload : Bytes) (s : State) : Host.Outcome State Fault Refusal :=
  .next (dropUnknown s)

end Sys2Proof.Machine
end

