-- ==== Sys2Proof/Machine/Dispatch.lean ====
section
/-!
DEFINITION. The meaning of each decoded frame on receipt, one arm per row of the opcode map (R61, R83).
-/

namespace Sys2Proof.Machine

def exec (i : Instr) (s : State) : Host.Outcome State Fault Refusal :=
  match i with
  | .data seq payload => Sys2Proof.Machine.execData seq payload s
  | .ack seq payload => Sys2Proof.Machine.execAck seq payload s
  | .resetReq seq payload => Sys2Proof.Machine.execResetReq seq payload s
  | .resetAck seq payload => Sys2Proof.Machine.execResetAck seq payload s
  | .reserved4 seq payload => Sys2Proof.Machine.execReserved4 seq payload s
  | .reserved5 seq payload => Sys2Proof.Machine.execReserved5 seq payload s
  | .reserved6 seq payload => Sys2Proof.Machine.execReserved6 seq payload s
  | .reserved7 seq payload => Sys2Proof.Machine.execReserved7 seq payload s

end Sys2Proof.Machine
end

