-- ==== Sys2Proof/Machine/Environment.lean ====
section
/-!
DEFINITION. The environment's steps: SUBMIT (R94), RX_FRAME (R82), TX_READY (R95), TICK (R125) and INIT (R109).
-/

namespace Sys2Proof.Machine

/-- R94: the enabled SUBMIT step of a payload that fits in a frame. -/
def enqueuePayload (p : Bytes) (s : State) : State :=
  { s with txq := s.txq ++ [p], submitReply := some .accepted }

/-- R94 `SUBMIT(p)`. Where the step is not enabled the caller blocks: its payload waits at the port and nothing of the
block changes (log 4). -/
def submit (p : Bytes) (s : State) : State :=
  if maxPayload < p.length then
    { emit .rejectOversizeFrame s with submitReply := some .oversizeFrame }
  else if s.txqFull then { s with waiting := s.waiting ++ [p] }
  else enqueuePayload p s

/-- R94: the SUBMIT step of the `i`-th blocked caller, once TXQ has room (log 4). -/
def resumeSubmit (i : Nat) (s : State) : State :=
  match s.waiting[i]? with
  | none => s
  | some p =>
    if s.txqFull then s else { enqueuePayload p s with waiting := s.waiting.eraseIdx i }

/-- R82 `RX_FRAME(b)`. -/
def rxFrame (b : Bytes) (s : State) : State :=
  if mtu < b.length then s
  else if s.rxqFull then s
  else { s with rxq := s.rxq ++ [b] }

/-- R95 `TX_READY`. -/
def txReady (s : State) : State :=
  if s.hold.isSome then { s with readySeen := true } else s

/-- R125: one TICK of a timer with the given timeout. -/
def saturate (age timeout : Nat) : Nat := min (age + 1) timeout

/-- R125 `TICK`. -/
def tick (s : State) : State :=
  { s with
    ofq := s.ofq.map fun e => { e with age := saturate e.age s.cfg.rtoTicks }
    resetAge :=
      if s.link = .await ∧ s.reqPending = false then saturate s.resetAge s.cfg.resetRtoTicks
      else s.resetAge
    waitAge := if s.hold.isSome then saturate s.waitAge s.cfg.busyWaitTicks else s.waitAge }

/-- R109 `INIT`. -/
def initSession (s : State) : State :=
  { clearSeqState s with rxq := [], txq := [], link := .await, reqPending := true }

end Sys2Proof.Machine
end

