-- ==== Sys2Proof/Machine/Transmit.lean ====
section
/-!
DEFINITION. The TX step (43_transmit.md R98 to R104, 44_link_reset.md R113 to R115): the arbitration and its actions.
-/

namespace Sys2Proof.Machine

/-- The actions of the TX step, in R99's order. -/
inductive TxAction where
  /-- R98. -/
  | holdRetry (h : Held)
  /-- R114. -/
  | sendResetAck
  /-- R113. -/
  | sendResetReq
  /-- R115. -/
  | resetTimeout
  /-- R100. -/
  | sendAck
  /-- R101, on the oldest expired entry. -/
  | expiry (e : Entry)
  /-- R104, with the head of TXQ and the rest. -/
  | newData (p : Bytes) (rest : List Bytes)
  deriving DecidableEq, Repr

/-- R99, the last lines: the two actions of a link in EST with no ACK due. -/
def dataAction (s : State) : Option TxAction :=
  match s.expiredEntry with
  | some e => some (.expiry e)
  | none =>
    match s.txq with
    | p :: rest => if s.ofq.length < s.cfg.w then some (.newData p rest) else none
    | [] => none

/-- R99: TX step arbitration; `none` when the TX step is not enabled. -/
def txAction (s : State) : Option TxAction :=
  match s.hold with
  | some h =>
    if s.readySeen = true ∨ s.waitAge = s.cfg.busyWaitTicks then some (.holdRetry h) else none
  | none =>
    if s.rstAckPending = true then some .sendResetAck
    else if s.link = .await ∧ s.reqPending = true then some .sendResetReq
    else if s.link = .await ∧ s.resetAge = s.cfg.resetRtoTicks then some .resetTimeout
    else if s.link = .est ∧ s.ackPending = true then some .sendAck
    else if s.link = .est then dataAction s
    else none

/-- R98: hold retry. -/
def retryHeld (h : Held) (r : DriverReply) (s : State) : State :=
  let t := attempt h.frame r (if s.readySeen then s else emit (.log .busyWaitTimeout) s)
  match r with
  | .ok => accepted h.kind h.seq { t with hold := none }
  | .busy => t

/-- R114: send RESET_ACK. -/
def sendResetAck (r : DriverReply) (s : State) : Host.Outcome State Fault Refusal :=
  sendEncoded cmdResetAck 0 [] r { s with rstAckPending := false }

/-- R113: send RESET_REQ. -/
def sendResetReq (r : DriverReply) (s : State) : Host.Outcome State Fault Refusal :=
  sendEncoded cmdResetReq 0 [] r { s with reqPending := false, resetAge := 0 }

/-- R115: reset timer expiry. -/
def resetTimeout (s : State) : State :=
  if s.resetRetry < s.cfg.resetMaxRetry then
    { s with resetRetry := s.resetRetry + 1, reqPending := true }
  else
    emit .connLost (emit (.log .resetCeiling) { s with link := .disc, resetAge := 0, resetRetry := 0 })

/-- R100: send ACK. -/
def sendAck (r : DriverReply) (s : State) : Host.Outcome State Fault Refusal :=
  sendEncoded cmdAck s.lastDeliveredSeq [] r { s with ackPending := false }

/-- R102: the retransmit count of the oldest expired entry goes up by one. -/
def countRetx (s : State) : State :=
  { s with ofq := updateNth s.expired (fun e => { e with retx := e.retx + 1 }) 0 s.ofq }

/-- R102: retransmit entry `e`, the oldest expired one. -/
def retransmit (e : Entry) (r : DriverReply) (s : State) : Host.Outcome State Fault Refusal :=
  sendEncoded cmdData e.seq e.payload r (countRetx s)

/-- R103: the retry ceiling. -/
def retryCeiling (s : State) : State := localReset (emit (.log .retxCeiling) s)

/-- R101: retransmission timer expiry of `e`. -/
def retxExpiry (e : Entry) (r : DriverReply) (s : State) : Host.Outcome State Fault Refusal :=
  if e.retx < s.cfg.maxRetx then retransmit e r s else .next (retryCeiling s)

/-- R104: the payload leaves TXQ and becomes outstanding under the next sequence number. -/
def recordNewData (p : Bytes) (rest : List Bytes) (s : State) : State :=
  { s with
    txq := rest
    ofq := s.ofq ++ [⟨s.nextTxSeq, p, 0, 0⟩]
    nextTxSeq := seqInc s.nextTxSeq }

/-- R104: send new DATA. -/
def sendNewData (p : Bytes) (rest : List Bytes) (r : DriverReply) (s : State) :
    Host.Outcome State Fault Refusal :=
  sendEncoded cmdData s.nextTxSeq p r (recordNewData p rest s)

/-- One action of the TX step, the driver answering `r` if it makes an attempt. -/
def takeAction (a : TxAction) (r : DriverReply) (s : State) : Host.Outcome State Fault Refusal :=
  match a with
  | .holdRetry h => .next (retryHeld h r s)
  | .sendResetAck => sendResetAck r s
  | .sendResetReq => sendResetReq r s
  | .resetTimeout => .next (resetTimeout s)
  | .sendAck => sendAck r s
  | .expiry e => retxExpiry e r s
  | .newData p rest => sendNewData p rest r s

/-- R99: the TX step. Where it is not enabled, the turn changes nothing (log 3). -/
def txStep (r : DriverReply) (s : State) : Host.Outcome State Fault Refusal :=
  match txAction s with
  | some a => takeAction a r s
  | none => .next s

end Sys2Proof.Machine
end

