-- ==== Sys2Proof/Machine/Agents.lean ====
section
/-!
DEFINITION. The agents of 20_memory.md rule R45: whose turn it is, the RX step (42_receive.md R83), and one turn of any agent.
-/

namespace Sys2Proof.Machine

/-- The environment's next choice: the script's head, or a free value past its end (log 2). -/
def nextTurn (s : State) : Turn :=
  match s.script with
  | t :: _ => t
  | [] => Config.freeTurn s.steps

/-- The choice is spent, whether or not the step it names is enabled. -/
def spendTurn (s : State) : State :=
  { s with script := s.script.tail, steps := s.steps + 1 }

/-- R83: the RX step. Where it is not enabled, the turn changes nothing (log 3). -/
def rxStep (s : State) : Host.Outcome State Fault Refusal :=
  match s.rxq with
  | [] => .next s
  | b :: rest =>
    match decode b with
    | .error _ => .next (dropMalformed { s with rxq := rest })
    | .ok i => exec i { s with rxq := rest }

/-- R45: one turn of one agent. -/
def takeTurn (t : Turn) (s : State) : Host.Outcome State Fault Refusal :=
  match t with
  | .submit p => .next (submit p s)
  | .resume i => .next (resumeSubmit i s)
  | .rxFrame b => .next (rxFrame b s)
  | .txReady => .next (txReady s)
  | .tick => .next (tick s)
  | .init => .next (initSession s)
  | .rxs => rxStep s
  | .txs r => txStep r s

/-- One step of the block: a configuration outside R7's ranges is refused (log 7), otherwise the next turn is taken. -/
def stepBody (s : State) : Host.Outcome State Fault Refusal :=
  if s.cfg.legal then takeTurn (nextTurn s) (spendTurn s) else .refused .illegalConfiguration

/-- A frame placed where the next step reads it: at the head of RXQ, with the RX step chosen next (log 13). -/
def placeFrame (b : Bytes) (s : State) : State :=
  { s with rxq := b :: s.rxq.tail, script := .rxs :: s.script }

end Sys2Proof.Machine
end

