-- ==== Sys2Proof/Machine/Step.lean ====
section
/-!
DEFINITION. The step function, and the placing of an instruction where the next step fetches it.
-/

namespace Sys2Proof.Machine

/-- One atomic step of one agent (20_memory.md rule R45). -/
def step (s : State) : Host.Outcome State Fault Refusal := stepBody s

/-- `s` with the frame of the table word `w` where `step` takes its next frame (log 13). -/
def State.withFetchWord (s : State) (nbits w : Nat) : State := placeFrame (bytesOfWord nbits w) s

end Sys2Proof.Machine
end

