-- ==== Sys2Proof/Safety.lean ====
section
/-!
DEFINITION. What the statements about the machine are made of: the invariant of reachable states (10_state.md R36 to
R38 with the ranges of R17 to R32), the legitimate ACKs of 41_seqnum.md rule R80, quiescence (60_exceptions.md
R130), and runs with the weak fairness of 20_memory.md rule R46.
-/

namespace Sys2Proof.Machine

/-- R17, R23, R27: the queues keep their capacities and their items' lengths; a blocked caller's payload fits too. -/
abbrev QueuesBounded (s : State) : Prop :=
  s.rxq.length ≤ s.cfg.rxqDepth ∧ (∀ b ∈ s.rxq, b.length ≤ mtu) ∧
  s.txq.length ≤ s.cfg.txqDepth ∧ (∀ p ∈ s.txq, p.length ≤ maxPayload) ∧
  (∀ p ∈ s.waiting, p.length ≤ maxPayload)

/-- R28, R37 (first sentence): at most `W` entries, each field in its range. -/
abbrev EntriesBounded (s : State) : Prop :=
  s.ofq.length ≤ s.cfg.w ∧
  ∀ e ∈ s.ofq, e.payload.length ≤ maxPayload ∧ e.retx ≤ s.cfg.maxRetx ∧ e.age ≤ s.cfg.rtoTicks

/-- R20, R21, R31: the timers and the retry count keep their ranges. -/
abbrev TimersBounded (s : State) : Prop :=
  s.resetAge ≤ s.cfg.resetRtoTicks ∧ s.resetRetry ≤ s.cfg.resetMaxRetry ∧ s.waitAge ≤ s.cfg.busyWaitTicks

/-- R30, R58, R60: a held frame is a frame the block sends: its header is its kind and sequence number, its kind is no
reserved one, and only DATA carries a payload. -/
abbrev HeldFrameSound (h : Held) : Prop :=
  h.frame = headerByte h.kind h.seq :: h.frame.tail ∧ h.frame.length ≤ mtu ∧
  h.kind.toNat ≤ 3 ∧ (h.kind ≠ cmdData → h.frame.tail = [])

/-- R30, R31, R32: the held frame is sound, and the wait counts and the doorbell latches only while one is held. -/
abbrev HoldSound (s : State) : Prop :=
  (∀ h ∈ s.hold.toList, HeldFrameSound h) ∧
  (s.hold = none → s.waitAge = 0 ∧ s.readySeen = false)

/-- R36. -/
abbrev AckStateAgrees (s : State) : Prop :=
  s.lastDeliveredSeq = s.rxCursor - 1

/-- R38, first sentence, with the cleared cursors of R112's corner case. -/
abbrev IdleOutsideEst (s : State) : Prop :=
  s.link ≠ .est →
    s.ofq = [] ∧ s.ackPending = false ∧ s.rstAckPending = false ∧
    (∀ h ∈ s.hold.toList, h.kind = cmdResetReq) ∧ s.rxCursor = 0 ∧ s.nextTxSeq = 0

/-- R38, second sentence; and no RESET_REQ is held outside AWAIT (R108, R112). -/
abbrev NoHandshakeOutsideAwait (s : State) : Prop :=
  s.link ≠ .await →
    s.reqPending = false ∧ s.resetAge = 0 ∧ s.resetRetry = 0 ∧
    (∀ h ∈ s.hold.toList, h.kind ≠ cmdResetReq)

/-- The invariant of reachable states under any environment. -/
abbrev Inv (s : State) : Prop :=
  s.cfg.legal = true ∧ QueuesBounded s ∧ EntriesBounded s ∧ TimersBounded s ∧ HoldSound s ∧
  AckStateAgrees s ∧ IdleOutsideEst s ∧ NoHandshakeOutsideAwait s

/-- R37, second sentence: the outstanding numbers are consecutive and end just before `nextTxSeq`. -/
abbrev OfqNumbered (s : State) : Prop :=
  s.ofq.map (fun e => e.seq) =
    (List.range s.ofq.length).map fun i => s.nextTxSeq - BitVec.ofNat 5 (s.ofq.length - i)

/-- R80: an ACK the peer can legitimately send carries a value in `base-1 .. base+W-1`, where `base` is the oldest
outstanding number; with nothing outstanding there is nothing to ask. -/
abbrev LegitimateAck (a : Seq) (s : State) : Prop :=
  ∀ e ∈ s.ofq.head?.toList, seqDiff a (e.seq - 1) ≤ s.cfg.w

/-- The next step hands an ACK frame of number `a` to the receive sequencer in EST. -/
def TakesAck (a : Seq) (s : State) : Prop :=
  nextTurn s = .rxs ∧ s.link = .est ∧ ∃ b rest p, s.rxq = b :: rest ∧ decode b = .ok (.ack a p)

/-- The next step hands a RESET_REQ frame to the receive sequencer. -/
def TakesResetReq (s : State) : Prop :=
  nextTurn s = .rxs ∧ ∃ b rest q p, s.rxq = b :: rest ∧ decode b = .ok (.resetReq q p)

/-- The next step hands a RESET_ACK frame to the receive sequencer. -/
def TakesResetAck (s : State) : Prop :=
  nextTurn s = .rxs ∧ ∃ b rest q p, s.rxq = b :: rest ∧ decode b = .ok (.resetAck q p)

/-- The next step is the reset timer's expiry of R115. -/
def ResetTimerFires (s : State) : Prop :=
  (∃ r, nextTurn s = .txs r) ∧ txAction (spendTurn s) = some .resetTimeout

/-- The next step is the retry ceiling of R103. -/
def HitsRetryCeiling (s : State) : Prop :=
  (∃ r, nextTurn s = .txs r) ∧
    ∃ e, txAction (spendTurn s) = some (.expiry e) ∧ s.cfg.maxRetx ≤ e.retx

/-- R130: neither the RX step nor the TX step is enabled. -/
abbrev Quiescent (s : State) : Prop :=
  s.rxq = [] ∧ txAction s = none

/-- An outstanding frame without its timer. -/
def Entry.untimed (e : Entry) : Entry := { e with age := 0 }

/-- R97: `l` is `m` with the age of one entry numbered `q` at 0 and every other entry as it was. -/
def OneRestarted (q : Seq) (l m : List Entry) : Prop :=
  ∃ pre e post, m = pre ++ e :: post ∧ e.seq = q ∧ l = pre ++ { e with age := 0 } :: post

/-- The frame of a driver attempt. -/
def Event.wireFrame : Event → Option Bytes
  | .wireTx f _ => some f
  | _ => none

/-- The payload of a delivery. -/
def Event.delivered : Event → Option Bytes
  | .deliver p => some p
  | _ => none

/-- An infinite run in which the environment chooses the turns `sched` (R45): each step is taken with its turn as the
script (log 11). -/
def IsRun (sched : Nat → Turn) (run : Nat → State) : Prop :=
  ∀ n, step { run n with script := [sched n] } = .next (run (n + 1))

/-- R46: a worker whose step stays enabled is given a turn eventually. -/
def WeaklyFair (sched : Nat → Turn) (run : Nat → State) : Prop :=
  (∀ n, (∀ m, n ≤ m → (run m).rxEnabled = true) → ∃ m, n ≤ m ∧ sched m = .rxs) ∧
  (∀ n, (∀ m, n ≤ m → txAction (run m) ≠ none) → ∃ m r, n ≤ m ∧ sched m = .txs r)

/-- RXS takes its step, enabled, at the `m`-th state of the run. -/
def rxTaken (sched : Nat → Turn) (run : Nat → State) (m : Nat) : Bool :=
  (run m).rxEnabled && (sched m == .rxs)

/-- R83, R84: `t` is what RXS leaves of `s` when it pops the head of RXQ and handles it: a frame that decodes is run, and an
empty one logged. -/
def HandlesHead (s t : State) : Prop :=
  ∃ b rest, s.rxq = b :: rest ∧ t.rxq = rest ∧
    (∀ i, decode b = .ok i → exec i { spendTurn s with rxq := rest } = .next t) ∧
    (b = [] → t = { spendTurn s with rxq := rest, trace := s.trace ++ [.log .malformedFrame] })

/-- The frame an RX_FRAME turn delivers. -/
def Turn.inboundFrame : Turn → Option Bytes
  | .rxFrame b => some b
  | _ => none

/-- The frames RX_FRAME delivers in the `k` turns from the `n`-th on, in order. -/
def inboundFrames (sched : Nat → Turn) (n k : Nat) : List Bytes :=
  (List.range k).filterMap fun j => Turn.inboundFrame (sched (n + j))

/-- The heads of RXQ at the enabled RX steps among the `k` turns from the `n`-th on, in order. -/
def handledFrames (sched : Nat → Turn) (run : Nat → State) (n k : Nat) : List Bytes :=
  (List.range k).filterMap fun j => if rxTaken sched run (n + j) then (run (n + j)).rxq.head? else none

end Sys2Proof.Machine
end

