-- ==== Sys2Proof/Certificates/Slice0/Obligations.lean ====
section
/-!
DEFINITION. The statements for the provers. A statement about a step names the turn taken (`nextTurn s`), whether the
script fixes it or it is the environment's free choice, and gives the next state as a change of `spendTurn s`, in which
only the script and the step counter differ from `s` (`StepTakesTheNextTurn`).
-/

open Sys2Proof Sys2Proof.Machine

/-! ### The codec (40_codec.md) -/

/-- R69 whole: the header byte is `seq * 8 + cmd`, the payload follows, and a payload over 255 bytes is refused. The bit
layout is spec decision D1 (log 14). -/
def Obligations.EncodeWritesHeaderThenPayload : Prop :=
  ∀ (cmd : Cmd) (seq : Seq) (p : Bytes),
    (p.length ≤ 255 →
      ∃ h : Byte, encodeFrame cmd seq p = .ok (h :: p) ∧ h.toNat = seq.toNat * 8 + cmd.toNat) ∧
    (255 < p.length → encodeFrame cmd seq p = .error (.oversizeFrame p.length))

/-- R70 whole: `h[2:0]`, `h[7:3]` and the rest; only an empty input is malformed. -/
def Obligations.DecodeReadsHeaderThenPayload : Prop :=
  decodeFrame [] = .error .malformedFrame ∧
  ∀ (h : Byte) (p : Bytes), ∃ (cmd : Cmd) (seq : Seq),
    decodeFrame (h :: p) = .ok (cmd, seq, p) ∧ cmd.toNat = h.toNat % 8 ∧ seq.toNat = h.toNat / 8

/-- From R61: every header byte matches exactly one row of the opcode map, and the frame decodes to that row's command
with its sequence field and payload; an empty frame matches no row. -/
def Obligations.EveryHeaderMatchesOneRow : Prop :=
  decode [] = .error .malformedFrame ∧
  ∀ h : Byte, ∃ row ∈ opcodeMap, row.hits h = true ∧ (∀ other ∈ opcodeMap, other.hits h = true → other = row) ∧
    ∀ p : Bytes, ∃ i : Instr,
      decode (h :: p) = .ok i ∧ i.cmd = row.cmd ∧ i.seq = headerSeq h ∧ i.payload = p

/-- The spec's round trip (40_codec.md, "decode(encode(cmd, seq, payload)) == (cmd, seq, payload)"), for every frame:
a well-formed one encodes, and decodes to itself; an ill-formed one does not encode. -/
def Obligations.EncodedFrameDecodesToItself : Prop :=
  ∀ i : Instr,
    (i.wellFormed = true → ∃ b, encode i = .ok b ∧ b.length ≤ mtu ∧ decode b = .ok i) ∧
    (i.wellFormed = false → encode i = .error (.oversizeFrame i.payload.length))

/-- The spec's other direction (40_codec.md, "encode(decode(b)) = b"): no header bit is lost. -/
def Obligations.DecodedFrameEncodesToItself : Prop :=
  ∀ b : Bytes, 1 ≤ b.length → b.length ≤ mtu →
    ∃ i : Instr, decode b = .ok i ∧ i.wellFormed = true ∧ encode i = .ok b

/-- A few words written out from R61's patterns decode to the frames they stand for. -/
def Obligations.WrittenOutWordsDecode : Prop :=
  decode [0b00000000, 0x41] = .ok (.data 0 [0x41]) ∧
  decode [0b11111001] = .ok (.ack 31 []) ∧
  decode [0b00001010] = .ok (.resetReq 1 []) ∧
  decode [0b00010011] = .ok (.resetAck 2 []) ∧
  decode [0b10000100] = .ok (.reserved4 16 []) ∧
  decode [0b10100101, 0x01, 0x02] = .ok (.reserved5 20 [0x01, 0x02]) ∧
  decode [0b00001110] = .ok (.reserved6 1 []) ∧
  decode [0b11111111, 0x00] = .ok (.reserved7 31 [0x00])

/-! ### The comparator (41_seqnum.md) -/

/-- R73 to R78 whole, over the numbers 0..31. -/
def Obligations.SequenceComparatorValues : Prop :=
  ∀ a b : Seq,
    (seqInc a).toNat = (a.toNat + 1) % 32 ∧
    seqDiff a b = (a.toNat + 32 - b.toNat) % 32 ∧
    sdiff5 a b = (if seqDiff a b < 16 then (seqDiff a b : Int) else (seqDiff a b : Int) - 32) ∧
    -16 ≤ sdiff5 a b ∧ sdiff5 a b ≤ 15 ∧
    (seqLt a b = true ↔ sdiff5 a b < 0) ∧
    (seqLe a b = true ↔ sdiff5 a b ≤ 0) ∧
    (seqEq a b = true ↔ a = b) ∧ (seqEq a b = true ↔ sdiff5 a b = 0)

/-- The spec's reasoning on distance 16 and on the window (41_seqnum.md, "The half-range corner" and "Why the window is
at most 15"): away from distance 16 exactly one of older, equal, newer holds and at 16 both are older; for `W ≤ 15` retire's
comparison cuts the window exactly at every legitimate ACK; for a window of 16 it is wrong. -/
def Obligations.WindowOfFifteenIsCutRightly : Prop :=
  (∀ a b : Seq, seqDiff a b = 16 → seqLt a b = true ∧ seqLt b a = true) ∧
  (∀ a b : Seq, seqDiff a b ≠ 16 →
    (seqLt a b = true ∧ a ≠ b ∧ seqLt b a = false) ∨ (seqLt a b = false ∧ a = b ∧ seqLt b a = false) ∨
    (seqLt a b = false ∧ a ≠ b ∧ seqLt b a = true)) ∧
  (∀ (w : Nat) (base : Seq) (j k : Nat), w ≤ 15 → j < w → k ≤ w →
    seqLe (base + BitVec.ofNat 5 j) (base - 1 + BitVec.ofNat 5 k) = decide (j < k)) ∧
  ∀ base : Seq, seqLe (base + BitVec.ofNat 5 15) (base - 1) = true

/-! ### The receive sequencer (42_receive.md) -/

/-- R86 whole. -/
def Obligations.InOrderDataIsDelivered : Prop :=
  ∀ (s : State) (seq : Seq) (p : Bytes), s.link = .est → seq = s.rxCursor →
    exec (.data seq p) s = .next { s with
      trace := s.trace ++ [.deliver p], rxCursor := seq + 1, lastDeliveredSeq := seq, ackPending := true }

/-- R87 and R88 whole: neither delivers, neither moves a cursor; a duplicate makes an ACK due and a gap does nothing. -/
def Obligations.DuplicateIsAckedGapIsDiscarded : Prop :=
  ∀ (s : State) (seq : Seq) (p : Bytes), s.link = .est →
    (sdiff5 seq s.rxCursor < 0 → exec (.data seq p) s = .next { s with ackPending := true }) ∧
    (0 < sdiff5 seq s.rxCursor → exec (.data seq p) s = .next s)

/-- R85 whole: a DATA frame is dropped outside EST; in EST the distances of the rule sort every sequence number into
exactly one case. -/
def Obligations.DataIsSortedThreeWays : Prop :=
  ∀ (s : State) (seq : Seq) (p : Bytes),
    (s.link ≠ .est → exec (.data seq p) s = .next s) ∧
    (s.link = .est →
      (seqDiff seq s.rxCursor = 0 → exec (.data seq p) s = .next (dataInOrder seq p s)) ∧
      (1 ≤ seqDiff s.rxCursor seq → seqDiff s.rxCursor seq ≤ 16 →
        exec (.data seq p) s = .next (dataDuplicate s)) ∧
      (1 ≤ seqDiff seq s.rxCursor → seqDiff seq s.rxCursor ≤ 15 →
        exec (.data seq p) s = .next (dataGap s)))

/-- R89 and R105 whole: in EST exactly the entries after `a` stay, in order; outside EST the frame is dropped. -/
def Obligations.AckRetiresUpToItsNumber : Prop :=
  ∀ (s : State) (a : Seq) (p : Bytes),
    (s.link = .est →
      exec (.ack a p) s = .next { s with ofq := s.ofq.filter fun e => decide (0 < sdiff5 e.seq a) }) ∧
    (s.link ≠ .est → exec (.ack a p) s = .next s)

/-- R90, R108 and R111 whole: in any link state both directions are cleared in the one step, a RESET_ACK is due, and the
queues are kept. -/
def Obligations.ResetReqClearsBothDirections : Prop :=
  ∀ (s : State) (q : Seq) (p : Bytes),
    exec (.resetReq q p) s = .next { s with
      link := .est, rstAckPending := true,
      rxCursor := 0, lastDeliveredSeq := 31, ackPending := false,
      ofq := [], nextTxSeq := 0, hold := none, waitAge := 0, readySeen := false,
      reqPending := false, resetAge := 0, resetRetry := 0 }

/-- R91 and R112 whole: ignored outside AWAIT; in AWAIT the handshake ends, and a held RESET_REQ is dropped while any
other held frame stays. -/
def Obligations.ResetAckCompletesHandshake : Prop :=
  ∀ (s : State) (q : Seq) (p : Bytes),
    (s.link ≠ .await → exec (.resetAck q p) s = .next s) ∧
    (s.link = .await → (∃ f k, s.hold = some ⟨f, cmdResetReq, k⟩) →
      exec (.resetAck q p) s = .next { s with
        link := .est, reqPending := false, resetAge := 0, resetRetry := 0,
        hold := none, waitAge := 0, readySeen := false }) ∧
    (s.link = .await → (¬ ∃ f k, s.hold = some ⟨f, cmdResetReq, k⟩) →
      exec (.resetAck q p) s = .next { s with
        link := .est, reqPending := false, resetAge := 0, resetRetry := 0 })

/-- R92 whole, for each of the four reserved commands, in every link state. -/
def Obligations.ReservedCommandsAreDroppedAndLogged : Prop :=
  ∀ (s : State) (q : Seq) (p : Bytes),
    exec (.reserved4 q p) s = .next { s with trace := s.trace ++ [.log .unknownCmd] } ∧
    exec (.reserved5 q p) s = .next { s with trace := s.trace ++ [.log .unknownCmd] } ∧
    exec (.reserved6 q p) s = .next { s with trace := s.trace ++ [.log .unknownCmd] } ∧
    exec (.reserved7 q p) s = .next { s with trace := s.trace ++ [.log .unknownCmd] }

/-- R84 whole: an empty frame is popped and logged, in every link state, with no other effect. -/
def Obligations.MalformedFrameIsDroppedAndLogged : Prop :=
  ∀ (s : State) (rest : List Bytes),
    s.cfg.legal = true → nextTurn s = .rxs → s.rxq = [] :: rest →
    step s = .next { spendTurn s with rxq := rest, trace := s.trace ++ [.log .malformedFrame] }

/-- R82 whole: the bridge pushes, and drops in silence what is too long or meets a full queue. -/
def Obligations.InboundFrameIsQueuedOrDropped : Prop :=
  ∀ (s : State) (b : Bytes), s.cfg.legal = true → nextTurn s = .rxFrame b →
    step s = .next
      (if 256 < b.length ∨ s.rxq.length = s.cfg.rxqDepth then spendTurn s
        else { spendTurn s with rxq := s.rxq ++ [b] })

/-! ### Steps (20_memory.md R45, 42_receive.md R83) -/

/-- How the model picks and spends a turn (the model's form, log 2 and log 3): the script's head, else the
environment's free choice; one turn a step; only the script and the counter change beside the turn's own effect. -/
def Obligations.StepTakesTheNextTurn : Prop :=
  (∀ s : State, s.cfg.legal = true → step s = takeTurn (nextTurn s) (spendTurn s)) ∧
  (∀ s : State, spendTurn s = { s with script := s.script.tail, steps := s.steps + 1 }) ∧
  (∀ (s : State) (t : Turn) (ts : List Turn), s.script = t :: ts → nextTurn s = t) ∧
  (∀ s : State, s.script = [] → nextTurn s = Config.freeTurn s.steps)

/-- From R83: the RX step pops the head of RXQ and runs the frame it decodes to. That a turn of RXS with RXQ empty, where
R83 has no step enabled, answers a next state with nothing of the block changed is the model's choice (log 3). -/
def Obligations.StepRunsTheDecodedFrame : Prop :=
  (∀ (s : State) (b : Bytes) (rest : List Bytes) (i : Instr),
    s.cfg.legal = true → nextTurn s = .rxs → s.rxq = b :: rest → decode b = .ok i →
    step s = exec i { spendTurn s with rxq := rest }) ∧
  (∀ s : State, s.cfg.legal = true → nextTurn s = .rxs → s.rxq = [] → step s = .next (spendTurn s))

/-- R93 whole, over every step: the trace only grows, and whatever puts a frame to the driver is a TX step. -/
def Obligations.OnlyTxStepsSend : Prop :=
  ∀ s t : State, step s = .next t →
    ∃ es, t.trace = s.trace ++ es ∧ ((∃ e ∈ es, e.wireFrame ≠ none) → ∃ r, nextTurn s = .txs r)

/-- From 20_memory.md, "DELIVER events come out in strictly increasing sequence order": a step delivers at most once, what
it delivers is the DATA frame numbered `rxCursor`, the cursor then goes up by one, and otherwise the cursor stays or is
reset to 0. -/
def Obligations.DeliveryFollowsTheCursor : Prop :=
  ∀ s t : State, step s = .next t →
    ∃ es, t.trace = s.trace ++ es ∧
      ((∃ b rest p, nextTurn s = .rxs ∧ s.rxq = b :: rest ∧ decode b = .ok (.data s.rxCursor p) ∧
          es = [.deliver p] ∧ t.rxCursor = s.rxCursor + 1 ∧ t.lastDeliveredSeq = s.rxCursor) ∨
        ((∀ e ∈ es, e.delivered = none) ∧ (t.rxCursor = s.rxCursor ∨ t.rxCursor = 0)))

/-! ### Inputs of the transmit side (43_transmit.md) -/

/-- From R94: refused when too long, queued when there is room, and, where TXQ is full, not enabled; a TX step that pops
TXQ, or an INIT, makes it enabled. That a turn for a SUBMIT that is not enabled answers a next state in which only the list of
waiting payloads may differ is the model's choice (log 3, log 4). -/
def Obligations.SubmitAcceptsRefusesOrBlocks : Prop :=
  (∀ (s : State) (p : Bytes), s.cfg.legal = true → nextTurn s = .submit p →
    (255 < p.length →
      step s = .next { spendTurn s with
        trace := s.trace ++ [.rejectOversizeFrame], submitReply := some .oversizeFrame }) ∧
    (p.length ≤ 255 → s.txq.length ≠ s.cfg.txqDepth →
      step s = .next { spendTurn s with txq := s.txq ++ [p], submitReply := some .accepted }) ∧
    (p.length ≤ 255 → s.txq.length = s.cfg.txqDepth →
      ∃ w, step s = .next { spendTurn s with waiting := w })) ∧
  ∀ s t : State, s.txq.length = s.cfg.txqDepth → step s = .next t →
    (nextTurn s = .init ∨ ((∃ r, nextTurn s = .txs r) ∧ t.txq ≠ s.txq)) → t.txq.length ≠ t.cfg.txqDepth

/-- The model's choice (log 4; log 3 for a turn that takes nothing) for R94's "A TX step that pops TXQ, or an INIT, lifts the
block": a blocked caller's payload is kept as it is, and its SUBMIT step is taken once TXQ has room. -/
def Obligations.BlockedSubmitIsTakenWhenThereIsRoom : Prop :=
  (∀ (s : State) (p : Bytes), s.cfg.legal = true → nextTurn s = .submit p →
    p.length ≤ 255 → s.txq.length = s.cfg.txqDepth →
    step s = .next { spendTurn s with waiting := s.waiting ++ [p] }) ∧
  (∀ (s : State) (p : Bytes) (pre post : List Bytes), s.cfg.legal = true →
    s.waiting = pre ++ p :: post → nextTurn s = .resume pre.length →
    (s.txq.length ≠ s.cfg.txqDepth →
      step s = .next { spendTurn s with
        txq := s.txq ++ [p], submitReply := some .accepted, waiting := pre ++ post }) ∧
    (s.txq.length = s.cfg.txqDepth → step s = .next (spendTurn s))) ∧
  (∀ (s : State) (i : Nat), s.cfg.legal = true → nextTurn s = .resume i → s.waiting.length ≤ i →
    step s = .next (spendTurn s))

/-- R95 whole. -/
def Obligations.ReadySignalIsLatchedWhileHeld : Prop :=
  ∀ s : State, s.cfg.legal = true → nextTurn s = .txReady →
    (s.hold ≠ none → step s = .next { spendTurn s with readySeen := true }) ∧
    (s.hold = none → step s = .next (spendTurn s))

/-! ### The send primitive and the busy hold (43_transmit.md) -/

/-- R96 whole, for both replies of the driver. -/
def Obligations.SendEmitsAndHoldsOnBusy : Prop :=
  ∀ (s : State) (frame : Bytes) (kind : Cmd) (seq : Seq),
    send frame kind seq .busy s =
      { s with trace := s.trace ++ [.wireTx frame .busy], waitAge := 0, readySeen := false,
               hold := some ⟨frame, kind, seq⟩ } ∧
    send frame kind seq .ok s =
      accepted kind seq
        { s with trace := s.trace ++ [.wireTx frame .ok], waitAge := 0, readySeen := false }

/-- R97 whole: acceptance of a DATA frame starts the age of one entry with its number again (which, if several carry it,
is left open, log 9), of a RESET_REQ in AWAIT the reset timer, and of anything else nothing. -/
def Obligations.AcceptanceRestartsOneTimer : Prop :=
  (∀ (s : State) (seq : Seq), (∃ e ∈ s.ofq, e.seq = seq) →
    ∃ pre e post, s.ofq = pre ++ e :: post ∧ e.seq = seq ∧
      accepted cmdData seq s = { s with ofq := pre ++ { e with age := 0 } :: post }) ∧
  (∀ (s : State) (seq : Seq), (¬ ∃ e ∈ s.ofq, e.seq = seq) → accepted cmdData seq s = s) ∧
  (∀ (s : State) (seq : Seq), s.link = .await → accepted cmdResetReq seq s = { s with resetAge := 0 }) ∧
  (∀ (s : State) (seq : Seq), s.link ≠ .await → accepted cmdResetReq seq s = s) ∧
  (∀ (s : State) (kind : Cmd) (seq : Seq), kind ≠ cmdData → kind ≠ cmdResetReq → accepted kind seq s = s)

/-- From R98: with a frame held, the TX step is not enabled before the ready signal or the end of the bounded wait, then
it attempts that frame again, logging a wait that ran out. That a turn for the step while it is not enabled answers a next state
with nothing changed is the model's choice (log 3). -/
def Obligations.HeldFrameIsRetried : Prop :=
  ∀ (s : State) (h : Held) (r : DriverReply),
    s.cfg.legal = true → nextTurn s = .txs r → s.hold = some h →
    (s.readySeen = false → s.waitAge ≠ s.cfg.busyWaitTicks → step s = .next (spendTurn s)) ∧
    (s.readySeen = true →
      step s = .next (match r with
        | .ok => accepted h.kind h.seq { spendTurn s with
            trace := s.trace ++ [.wireTx h.frame .ok], waitAge := 0, readySeen := false, hold := none }
        | .busy => { spendTurn s with
            trace := s.trace ++ [.wireTx h.frame .busy], waitAge := 0, readySeen := false })) ∧
    (s.readySeen = false → s.waitAge = s.cfg.busyWaitTicks →
      step s = .next (match r with
        | .ok => accepted h.kind h.seq { spendTurn s with
            trace := s.trace ++ [.log .busyWaitTimeout, .wireTx h.frame .ok], waitAge := 0,
            readySeen := false, hold := none }
        | .busy => { spendTurn s with
            trace := s.trace ++ [.log .busyWaitTimeout, .wireTx h.frame .busy], waitAge := 0,
            readySeen := false }))

/-! ### The TX step (43_transmit.md R99 to R104) -/

/-- R99 whole: the first enabled action of the rule's list, and none when the list has none. -/
def Obligations.TxStepTakesTheFirstEnabledAction : Prop :=
  ∀ s : State,
    (∀ h, s.hold = some h →
      (s.readySeen = true ∨ s.waitAge = s.cfg.busyWaitTicks → txAction s = some (.holdRetry h)) ∧
      (¬ (s.readySeen = true ∨ s.waitAge = s.cfg.busyWaitTicks) → txAction s = none)) ∧
    (s.hold = none →
      (s.rstAckPending = true → txAction s = some .sendResetAck) ∧
      (s.rstAckPending = false →
        (s.link = .disc → txAction s = none) ∧
        (s.link = .await →
          (s.reqPending = true → txAction s = some .sendResetReq) ∧
          (s.reqPending = false → s.resetAge = s.cfg.resetRtoTicks → txAction s = some .resetTimeout) ∧
          (s.reqPending = false → s.resetAge ≠ s.cfg.resetRtoTicks → txAction s = none)) ∧
        (s.link = .est →
          (s.ackPending = true → txAction s = some .sendAck) ∧
          (s.ackPending = false →
            (∀ pre e post, s.ofq = pre ++ e :: post → (∀ x ∈ pre, x.age ≠ s.cfg.rtoTicks) →
              e.age = s.cfg.rtoTicks → txAction s = some (.expiry e)) ∧
            ((∀ e ∈ s.ofq, e.age ≠ s.cfg.rtoTicks) →
              (∀ p rest, s.txq = p :: rest → s.ofq.length < s.cfg.w → txAction s = some (.newData p rest)) ∧
              (s.txq = [] ∨ s.cfg.w ≤ s.ofq.length → txAction s = none))))))

/-- R100 whole, with R96 for both replies. -/
def Obligations.PendingAckIsSent : Prop :=
  ∀ (s : State) (r : DriverReply),
    s.cfg.legal = true → nextTurn s = .txs r → s.hold = none → s.rstAckPending = false →
    s.link = .est → s.ackPending = true →
    step s = .next { spendTurn s with
      ackPending := false, waitAge := 0, readySeen := false,
      trace := s.trace ++ [.wireTx [headerByte cmdAck s.lastDeliveredSeq] r],
      hold := if r = .ok then none
        else some ⟨[headerByte cmdAck s.lastDeliveredSeq], cmdAck, s.lastDeliveredSeq⟩ }

/-- R102 whole: the oldest expired entry, below the ceiling, is sent again unchanged and counted; every age stays unless
the driver accepts, and then the age of one entry with its number, and no other, starts again (which one, if several carry the
number, is left open, log 9). -/
def Obligations.OldestExpiredFrameIsRetransmitted : Prop :=
  ∀ (s : State) (r : DriverReply) (pre post : List Entry) (e : Entry),
    s.cfg.legal = true → nextTurn s = .txs r → s.hold = none → s.rstAckPending = false →
    s.link = .est → s.ackPending = false →
    s.ofq = pre ++ e :: post → (∀ x ∈ pre, x.age ≠ s.cfg.rtoTicks) → e.age = s.cfg.rtoTicks →
    e.retx < s.cfg.maxRetx → e.payload.length ≤ 255 →
    ∃ q, step s = .next { spendTurn s with
        ofq := q, waitAge := 0, readySeen := false,
        trace := s.trace ++ [.wireTx (headerByte cmdData e.seq :: e.payload) r],
        hold := if r = .ok then none
          else some ⟨headerByte cmdData e.seq :: e.payload, cmdData, e.seq⟩ } ∧
      (r = .busy → q = pre ++ { e with retx := e.retx + 1 } :: post) ∧
      (r = .ok → OneRestarted e.seq q (pre ++ { e with retx := e.retx + 1 } :: post)) ∧
      (r = .ok → (∀ x ∈ pre ++ post, x.seq ≠ e.seq) →
        q = pre ++ { e with retx := e.retx + 1, age := 0 } :: post)

/-- R103 and R110 whole: at the ceiling the block logs and resets both directions locally, keeping the queues. -/
def Obligations.RetryCeilingResetsTheLink : Prop :=
  ∀ (s : State) (r : DriverReply) (pre post : List Entry) (e : Entry),
    s.cfg.legal = true → nextTurn s = .txs r → s.hold = none → s.rstAckPending = false →
    s.link = .est → s.ackPending = false →
    s.ofq = pre ++ e :: post → (∀ x ∈ pre, x.age ≠ s.cfg.rtoTicks) → e.age = s.cfg.rtoTicks →
    s.cfg.maxRetx ≤ e.retx →
    step s = .next { spendTurn s with
      trace := s.trace ++ [.log .retxCeiling], link := .await, reqPending := true,
      rxCursor := 0, lastDeliveredSeq := 31, ackPending := false,
      ofq := [], nextTxSeq := 0, hold := none, waitAge := 0, readySeen := false,
      rstAckPending := false, resetAge := 0, resetRetry := 0 }

/-- R104 whole, with R96: the head of TXQ becomes outstanding under the next number, with age 0, and is handed to the
driver, whatever the driver answers; if it accepts, the age of one entry with that number starts again (R97; the new entry's own,
unless an older one carries the number too: which one is then left open, log 9), and every other entry stays as it was. -/
def Obligations.NewDataTakesTheNextNumber : Prop :=
  ∀ (s : State) (r : DriverReply) (p : Bytes) (rest : List Bytes),
    s.cfg.legal = true → nextTurn s = .txs r → s.hold = none → s.rstAckPending = false →
    s.link = .est → s.ackPending = false → (∀ e ∈ s.ofq, e.age ≠ s.cfg.rtoTicks) →
    s.txq = p :: rest → s.ofq.length < s.cfg.w → p.length ≤ 255 →
    ∃ q, step s = .next { spendTurn s with
        txq := rest, ofq := q, nextTxSeq := s.nextTxSeq + 1, waitAge := 0, readySeen := false,
        trace := s.trace ++ [.wireTx (headerByte cmdData s.nextTxSeq :: p) r],
        hold := if r = .ok then none else some ⟨headerByte cmdData s.nextTxSeq :: p, cmdData, s.nextTxSeq⟩ } ∧
      (r = .ok → OneRestarted s.nextTxSeq q (s.ofq ++ [⟨s.nextTxSeq, p, 0, 0⟩])) ∧
      (r = .busy ∨ (∀ e ∈ s.ofq, e.seq ≠ s.nextTxSeq) → q = s.ofq ++ [⟨s.nextTxSeq, p, 0, 0⟩])

/-- From R98, "While a frame is held, no other TX action runs": a TX step with a frame held attempts no other frame and
takes nothing from TXQ; and, over every step, the held frame stays held until the driver accepts it or a reset action or the
end of its own handshake drops it. -/
def Obligations.NothingPassesAHeldFrame : Prop :=
  ∀ (s t : State) (h : Held), s.hold = some h → step s = .next t →
    (∀ r, nextTurn s = .txs r →
      t.txq = s.txq ∧ t.nextTxSeq = s.nextTxSeq ∧ t.ackPending = s.ackPending ∧
      t.rstAckPending = s.rstAckPending ∧ t.reqPending = s.reqPending ∧ t.link = s.link ∧
      ∃ es, t.trace = s.trace ++ es ∧ ∀ e ∈ es, e.wireFrame = none ∨ e.wireFrame = some h.frame) ∧
    (t.hold = some h ∨
      t.hold = none ∧
        ((nextTurn s = .txs .ok ∧ ∃ es, t.trace = s.trace ++ es ++ [.wireTx h.frame .ok]) ∨
          nextTurn s = .init ∨ TakesResetReq s ∨ (s.link = .await ∧ TakesResetAck s ∧ h.kind = cmdResetReq)))

/-- From R99's order and its source rule "before sending the next queued DATA frame, the engine checks `ackPending`": a TX
step takes a payload from TXQ only in EST, with no ACK, RESET_ACK, held frame or expired entry before it and with room
in the window. -/
def Obligations.AckGoesBeforeNewData : Prop :=
  ∀ (s t : State) (r : DriverReply), nextTurn s = .txs r → step s = .next t → t.txq ≠ s.txq →
    s.link = .est ∧ s.ackPending = false ∧ s.rstAckPending = false ∧ s.hold = none ∧
    (∀ e ∈ s.ofq, e.age ≠ s.cfg.rtoTicks) ∧ s.ofq.length < s.cfg.w ∧ ∃ p, s.txq = p :: t.txq

/-- From 20_memory.md, "New DATA frames are sent in TXQ order, and each takes the next nextTxSeq": the counter moves only by
one with the head of TXQ becoming the newest outstanding frame, or to 0 with nothing outstanding. -/
def Obligations.NumbersGoToPayloadsInQueueOrder : Prop :=
  ∀ s t : State, step s = .next t → t.nextTxSeq ≠ s.nextTxSeq →
    (t.nextTxSeq = s.nextTxSeq + 1 ∧ ∃ p, s.txq = p :: t.txq ∧
      t.ofq.map Entry.untimed = s.ofq.map Entry.untimed ++ [(⟨s.nextTxSeq, p, 0, 0⟩ : Entry)] ∧
      ∃ r, t.trace = s.trace ++ [.wireTx (headerByte cmdData s.nextTxSeq :: p) r]) ∨
    (t.nextTxSeq = 0 ∧ t.ofq = [])

/-- The spec's retention property (43_transmit.md, "an entry leaves OFQ only through Retire with an ACK that covers it, or
through a reset action"): over every step of every state an outstanding frame stays, with its number and payload, or a
covering ACK is taken, or a reset action empties the list. -/
def Obligations.OutstandingFrameLeavesOnlyByAckOrReset : Prop :=
  ∀ (s t : State) (e : Entry), step s = .next t → e ∈ s.ofq →
    (∃ e' ∈ t.ofq, e'.seq = e.seq ∧ e'.payload = e.payload ∧ e.retx ≤ e'.retx) ∨
    (∃ a, TakesAck a s ∧ seqLe e.seq a = true) ∨
    (t.ofq = [] ∧ (nextTurn s = .init ∨ TakesResetReq s ∨ HitsRetryCeiling s))

/-! ### The link-state reset synchronizer (44_link_reset.md) -/

/-- R109 whole: from any state INIT leaves the one state of the rule. -/
def Obligations.InitClearsTheWholeBlock : Prop :=
  ∀ s : State, s.cfg.legal = true → nextTurn s = .init →
    step s = .next { spendTurn s with
      link := .await, reqPending := true, resetAge := 0, resetRetry := 0, rstAckPending := false,
      rxq := [], rxCursor := 0, lastDeliveredSeq := 31, ackPending := false,
      txq := [], ofq := [], nextTxSeq := 0, hold := none, waitAge := 0, readySeen := false }

/-- From 44_link_reset.md, "INIT is idempotent" and "The state after INIT does not depend on the state before it": two INIT
turns leave the state of one, and after INIT two blocks of one configuration agree on every element of 10_state.md. -/
def Obligations.InitIsIdempotent : Prop :=
  (∀ s t u : State, nextTurn s = .init → step s = .next t → nextTurn t = .init → step t = .next u →
    u = { t with script := u.script, steps := u.steps }) ∧
  (∀ s s' t t' : State, s.cfg = s'.cfg → nextTurn s = .init → nextTurn s' = .init →
    step s = .next t → step s' = .next t' →
    t' = { t with
      trace := t'.trace, submitReply := t'.submitReply, waiting := t'.waiting,
      script := t'.script, steps := t'.steps })

/-- R107 whole: each row of the transition table, and no other transition. -/
def Obligations.LinkMovesOnlyByTheTransitionTable : Prop :=
  (∀ c : Config, (State.powerOn c).link = .disc) ∧
  ∀ s t : State, step s = .next t →
    (nextTurn s = .init → t.link = .await) ∧
    (HitsRetryCeiling s → s.link = .est ∧ t.link = .await) ∧
    (TakesResetReq s → t.link = .est) ∧
    (s.link = .await → TakesResetAck s → t.link = .est) ∧
    (ResetTimerFires s → s.link = .await) ∧
    (ResetTimerFires s → s.resetRetry < s.cfg.resetMaxRetry → t.link = .await) ∧
    (ResetTimerFires s → s.cfg.resetMaxRetry ≤ s.resetRetry → t.link = .disc) ∧
    (nextTurn s ≠ .init → ¬ HitsRetryCeiling s → ¬ TakesResetReq s → ¬ (s.link = .await ∧ TakesResetAck s) →
      ¬ ResetTimerFires s → t.link = s.link)

/-- R113 whole, with R96 and R97 for both replies. -/
def Obligations.DueResetReqIsSent : Prop :=
  ∀ (s : State) (r : DriverReply),
    s.cfg.legal = true → nextTurn s = .txs r → s.hold = none → s.rstAckPending = false →
    s.link = .await → s.reqPending = true →
    step s = .next { spendTurn s with
      reqPending := false, resetAge := 0, waitAge := 0, readySeen := false,
      trace := s.trace ++ [.wireTx [0x02] r],
      hold := if r = .ok then none else some ⟨[0x02], cmdResetReq, 0⟩ }

/-- R114 whole, with R96 for both replies: the RESET_ACK goes out whatever else is due. -/
def Obligations.DueResetAckIsSent : Prop :=
  ∀ (s : State) (r : DriverReply),
    s.cfg.legal = true → nextTurn s = .txs r → s.hold = none → s.rstAckPending = true →
    step s = .next { spendTurn s with
      rstAckPending := false, waitAge := 0, readySeen := false,
      trace := s.trace ++ [.wireTx [0x03] r],
      hold := if r = .ok then none else some ⟨[0x03], cmdResetAck, 0⟩ }

/-- R115 whole: a retry while some are left, otherwise connection loss. -/
def Obligations.ResetTimeoutRetriesThenGivesUp : Prop :=
  ∀ (s : State) (r : DriverReply),
    s.cfg.legal = true → nextTurn s = .txs r → s.hold = none → s.rstAckPending = false →
    s.link = .await → s.reqPending = false → s.resetAge = s.cfg.resetRtoTicks →
    (s.resetRetry < s.cfg.resetMaxRetry →
      step s = .next { spendTurn s with resetRetry := s.resetRetry + 1, reqPending := true }) ∧
    (s.cfg.resetMaxRetry ≤ s.resetRetry →
      step s = .next { spendTurn s with
        link := .disc, resetAge := 0, resetRetry := 0,
        trace := s.trace ++ [.log .resetCeiling, .connLost] })

/-- From 44_link_reset.md, "Reset convergence": whenever a step of a block that keeps the invariant enters EST, by either
handshake, both directions start at sequence number 0. -/
def Obligations.EstablishedStartsAtSequenceZero : Prop :=
  ∀ s t : State, Inv s → step s = .next t → s.link ≠ .est → t.link = .est →
    t.nextTxSeq = 0 ∧ t.rxCursor = 0 ∧ t.lastDeliveredSeq = 31 ∧ t.ofq = []

/-- From 44_link_reset.md, "Reset convergence", between two blocks, in any states before it (the peer's RXQ empty): one side
starts, the peer answers; and both start at once and their requests cross. Each side ends in EST at sequence number 0,
having sent only what the handshake sends. -/
def Obligations.HandshakeConvergesOnBothSides : Prop :=
  (∀ a b : State, a.cfg.legal = true → b.cfg.legal = true → b.rxq = [] →
    a.script = [.init, .txs .ok, .rxFrame [0x03], .rxs] →
    b.script = [.rxFrame [0x02], .rxs, .txs .ok] →
    ∃ a' b', Sys2Proof.core.run 4 a = .next a' ∧ Sys2Proof.core.run 3 b = .next b' ∧
      a'.link = .est ∧ a'.nextTxSeq = 0 ∧ a'.rxCursor = 0 ∧
      b'.link = .est ∧ b'.nextTxSeq = 0 ∧ b'.rxCursor = 0 ∧
      a'.trace = a.trace ++ [.wireTx [0x02] .ok] ∧ b'.trace = b.trace ++ [.wireTx [0x03] .ok]) ∧
  (∀ a : State, a.cfg.legal = true →
    a.script = [.init, .txs .ok, .rxFrame [0x02], .rxs, .txs .ok, .rxFrame [0x03], .rxs] →
    ∃ a', Sys2Proof.core.run 7 a = .next a' ∧
      a'.link = .est ∧ a'.nextTxSeq = 0 ∧ a'.rxCursor = 0 ∧
      a'.trace = a.trace ++ [.wireTx [0x02] .ok, .wireTx [0x03] .ok])

/-! ### Timers (60_exceptions.md) -/

/-- R125 whole. -/
def Obligations.TickCountsEveryTimer : Prop :=
  ∀ s : State, s.cfg.legal = true → nextTurn s = .tick →
    step s = .next { spendTurn s with
      ofq := s.ofq.map fun e => { e with age := min (e.age + 1) s.cfg.rtoTicks }
      resetAge :=
        if s.link = .await ∧ s.reqPending = false then min (s.resetAge + 1) s.cfg.resetRtoTicks
        else s.resetAge
      waitAge := if s.hold = none then s.waitAge else min (s.waitAge + 1) s.cfg.busyWaitTicks }

/-- From R125 and R126: after `n` TICKs in a row every outstanding frame's age is `n` more, up to the timeout; so
`RTO_TICKS` of them let every timer run out. -/
def Obligations.TicksRunOutEveryRetransmissionTimer : Prop :=
  ∀ (n : Nat) (s : State) (rest : List Turn), s.cfg.legal = true →
    s.script = List.replicate n .tick ++ rest → (∀ e ∈ s.ofq, e.age ≤ s.cfg.rtoTicks) →
    ∃ t, Sys2Proof.core.run n s = .next t ∧ t.script = rest ∧
      t.ofq = s.ofq.map (fun e => { e with age := min (e.age + n) s.cfg.rtoTicks }) ∧
      (s.cfg.rtoTicks ≤ n → ∀ e ∈ t.ofq, t.expired e = true)

/-! ### Outputs, stops and reset -/

/-- From R63 (the encoding, the value 0b11 included), R34 (LINK_STATE is the encoding of `link`) and R120 (the numbers of the
log codes). -/
def Obligations.OutputCodesAreTheTables : Prop :=
  Link.disc.encode = 0b00 ∧ Link.await.encode = 0b01 ∧ Link.est.encode = 0b10 ∧
  (∀ s : State, s.linkState = s.link.encode ∧ s.linkState ≠ 0b11) ∧
  LogCode.malformedFrame.number = 1 ∧ LogCode.unknownCmd.number = 2 ∧
  LogCode.busyWaitTimeout.number = 3 ∧ LogCode.retxCeiling.number = 4 ∧ LogCode.resetCeiling.number = 5

/-- From R121, "No error stops the block": in every state that keeps the invariant, whatever the turn, the step answers a
next state. -/
def Obligations.NoErrorStopsTheBlock : Prop :=
  ∀ s : State, Inv s → ∃ t, step s = .next t

/-- The model's two stops: a configuration outside R7's ranges is refused (93_implementation_defined.md I3 "is refused";
log 7), and a TX step that would encode a payload over 255 bytes, which only states outside the spec's types can
hold, faults (log 8); nothing else is refused and nothing else faults. -/
def Obligations.OnlyIllegalStatesStop : Prop :=
  (∀ s : State, s.cfg.legal = false → step s = .refused .illegalConfiguration) ∧
  (∀ (s : State) (r : Refusal), step s = .refused r → s.cfg.legal = false) ∧
  (∀ (s : State) (r : DriverReply) (p : Bytes) (rest : List Bytes), s.cfg.legal = true →
    nextTurn s = .txs r → txAction (spendTurn s) = some (.newData p rest) → 255 < p.length →
    step s = .fault .oversizeFrame) ∧
  (∀ (s : State) (r : DriverReply) (e : Entry), s.cfg.legal = true →
    nextTurn s = .txs r → txAction (spendTurn s) = some (.expiry e) → e.retx < s.cfg.maxRetx →
    255 < e.payload.length → step s = .fault .oversizeFrame) ∧
  (∀ (s : State) (f : Fault), step s = .fault f →
    (∃ p ∈ s.txq, 255 < p.length) ∨ ∃ e ∈ s.ofq, 255 < e.payload.length)

/-- R132 whole: the power-on values, and what the block does in that state. -/
def Obligations.PowerOnStateWaitsForAReset : Prop :=
  ∀ c : Config, c.legal = true →
    (let s := State.powerOn c
     s.link = .disc ∧ s.rxq = [] ∧ s.txq = [] ∧ s.ofq = [] ∧
     s.rxCursor = 0 ∧ s.lastDeliveredSeq = 31 ∧ s.nextTxSeq = 0 ∧
     s.reqPending = false ∧ s.rstAckPending = false ∧ s.ackPending = false ∧ s.readySeen = false ∧
     s.resetAge = 0 ∧ s.waitAge = 0 ∧ s.resetRetry = 0 ∧ s.hold = none ∧
     txAction s = none ∧
     (∀ q p, exec (.data q p) s = .next s ∧ exec (.ack q p) s = .next s) ∧
     (∀ q p, ∃ t, exec (.resetReq q p) s = .next t ∧ t.link = .est) ∧
     (∀ p : Bytes, p.length ≤ 255 → (submit p s).txq = [p] ∧ txAction (submit p s) = none))

/-! ### Invariants and whole-machine properties -/

/-- The invariant of 10_state.md section 8 holds at power-on, under every legal configuration and at `State.reset`. That
`State.reset` is the power-on state of the reference configuration, with its OPEN timeouts opaque, is the model's reading of R7
and R132 (log 6). -/
def Obligations.InvariantHoldsAtReset : Prop :=
  State.reset = State.powerOn Config.reference ∧ Inv State.reset ∧ OfqNumbered State.reset ∧
  ∀ c : Config, c.legal = true → Inv (State.powerOn c) ∧ OfqNumbered (State.powerOn c)

/-- From 10_state.md section 8 ("`lastDeliveredSeq = (rxCursor - 1) mod 32` in every reachable state", "if `link ≠ EST` then
`OFQ` is empty ...") and the ranges of its state elements: every step, of any agent, with any input and any driver reply,
keeps the invariant. -/
def Obligations.EveryStepKeepsTheInvariant : Prop :=
  ∀ s t : State, Inv s → step s = .next t → Inv t

/-- From 10_state.md section 8, "its `seq` fields are consecutive modulo 32 from oldest to newest, and the newest is
`(nextTxSeq - 1) mod 32`": every step keeps it as long as an ACK taken is one the peer can legitimately send (R80; log
10). -/
def Obligations.LegitimateStepsKeepTheNumbering : Prop :=
  ∀ s t : State, Inv s → OfqNumbered s → (∀ a, TakesAck a s → LegitimateAck a s) → step s = .next t →
    OfqNumbered t

/-- From R139, "ACK values are not checked", and R105's corner case: an ACK that the peer cannot legitimately send can
break the numbering, so the premise above is needed (log 10). -/
def Obligations.IllegitimateAckCanBreakTheNumbering : Prop :=
  ∃ (s t : State) (a : Seq), Inv s ∧ OfqNumbered s ∧ TakesAck a s ∧ ¬ LegitimateAck a s ∧
    step s = .next t ∧ ¬ OfqNumbered t

/-- From R33 and R47: no step writes the configuration; RXS writes no TXQ and pops RXQ; TXS writes no RXQ; ENV, INIT apart,
writes no element but the queues it pushes, the doorbell and the ages. -/
def Obligations.AgentsWriteOnlyTheirElements : Prop :=
  ∀ s t : State, step s = .next t →
    t.cfg = s.cfg ∧
    (nextTurn s = .rxs → t.rxq = s.rxq.tail ∧ t.txq = s.txq ∧ t.waiting = s.waiting ∧
      (∀ e ∈ t.ofq, e ∈ s.ofq) ∧ (t.hold = s.hold ∨ t.hold = none)) ∧
    ((∃ r, nextTurn s = .txs r) → t.rxq = s.rxq ∧ t.waiting = s.waiting ∧
      ((t.rxCursor = s.rxCursor ∧ t.lastDeliveredSeq = s.lastDeliveredSeq) ∨ HitsRetryCeiling s)) ∧
    (nextTurn s ≠ .init → nextTurn s ≠ .rxs → (∀ r, nextTurn s ≠ .txs r) →
      t.link = s.link ∧ t.reqPending = s.reqPending ∧ t.resetRetry = s.resetRetry ∧
      t.rstAckPending = s.rstAckPending ∧ t.rxCursor = s.rxCursor ∧
      t.lastDeliveredSeq = s.lastDeliveredSeq ∧ t.ackPending = s.ackPending ∧
      t.nextTxSeq = s.nextTxSeq ∧ t.hold = s.hold ∧
      t.ofq.map Entry.untimed = s.ofq.map Entry.untimed ∧
      (t.rxq = s.rxq ∨ ∃ b, t.rxq = s.rxq ++ [b]) ∧ (t.txq = s.txq ∨ ∃ p, t.txq = s.txq ++ [p]))

/-- The model's choice (log 3) for a worker whose step is not enabled (R83, R99) and for R130's "In that state it waits for
an input": a turn of RXS with RXQ empty, or of TXS with no action, whatever the other worker has to do, answers a next state
with nothing of the block changed; so a quiescent block stays quiescent. -/
def Obligations.QuiescentBlockWaitsForInput : Prop :=
  (∀ s : State, s.cfg.legal = true → nextTurn s = .rxs → s.rxq = [] → step s = .next (spendTurn s)) ∧
  (∀ (s : State) (r : DriverReply), s.cfg.legal = true → nextTurn s = .txs r → txAction s = none →
    step s = .next (spendTurn s)) ∧
  ∀ s : State, s.cfg.legal = true → Quiescent s → (nextTurn s = .rxs ∨ ∃ r, nextTurn s = .txs r) →
    step s = .next (spendTurn s) ∧ Quiescent (spendTurn s)

/-- From R16 and R34, "What it does next is decided by its state and its inputs alone": the outputs steer nothing. A step
from two states that differ only in the events and the reply already given adds the same events and makes the same
changes. -/
def Obligations.OutputsNeverSteerTheBlock : Prop :=
  ∀ s t : State, step s = .next t →
    ∃ es, t.trace = s.trace ++ es ∧
      ∀ (tr : List Event) (rep : Option SubmitReply), ∃ rep',
        step { s with trace := tr, submitReply := rep } =
          .next { t with trace := tr ++ es, submitReply := rep' }

/-- From R58, "The block never encodes them on send", and R60: every frame a step puts to the driver decodes to a
well-formed frame of one of the four commands, with a payload only if it is DATA. -/
def Obligations.OnlyTheFourCommandsAreSent : Prop :=
  ∀ s t : State, Inv s → step s = .next t →
    ∃ es, t.trace = s.trace ++ es ∧ ∀ e ∈ es, ∀ f, e.wireFrame = some f →
      ∃ i : Instr, decode f = .ok i ∧ i.wellFormed = true ∧ i.cmd.toNat ≤ 3 ∧
        (i.cmd ≠ cmdData → i.payload = [])

/-- From R48 (RXQ is FIFO): over any finite run without INIT, the frames handled are a first part of those queued at the
start followed by those that arrive and are not dropped, in that order; each RX turn handles one until the queue is empty. -/
def Obligations.QueuedFramesAreHandledInOrder : Prop :=
  ∀ (ts rest : List Turn) (s t : State), s.script = ts ++ rest → Turn.init ∉ ts →
    Sys2Proof.core.run ts.length s = .next t →
    ∃ handled arrived, arrived.Sublist (ts.filterMap Machine.Turn.inboundFrame) ∧
      s.rxq ++ arrived = handled ++ t.rxq ∧
      handled.length ≤ ts.count .rxs ∧ min (ts.count .rxs) s.rxq.length ≤ handled.length

/-- From R46, weak fairness: in a weakly fair run, from any point after which INIT is not asserted, every frame queued then
is handled: what RXQ holds there, followed by frames of the RX_FRAME turns since, is the heads popped by the RX steps since,
followed by what RXQ holds at the end; and each of those RX steps runs the head it pops (R83, R84). -/
def Obligations.FairRunHandlesEveryQueuedFrame : Prop :=
  ∀ (sched : Nat → Turn) (run : Nat → State), IsRun sched run → WeaklyFair sched run →
    ∀ n, (∀ m, n ≤ m → sched m ≠ .init) →
      ∃ k arrived, arrived.Sublist (inboundFrames sched n k) ∧
        (run n).rxq ++ arrived = handledFrames sched run n k ++ (run (n + k)).rxq ∧
        (run n).rxq.length ≤ (handledFrames sched run n k).length ∧
        ∀ j < k, rxTaken sched run (n + j) = true →
          HandlesHead { run (n + j) with script := [sched (n + j)] } (run (n + j + 1))
end

