-- ==== Sys2Proof/Laws/Codec.lean ====
section
/-!
SUPPORT. The codec's small lemmas: header fields, the command of a decoded frame, and what encoding answers.
-/

namespace Sys2Proof

theorem maxPayload_eq : maxPayload = 255 := rfl

theorem mtu_eq : mtu = 256 := rfl

theorem wellFormed_iff (i : Instr) : i.wellFormed = true ↔ i.payload.length ≤ maxPayload :=
  decide_eq_true_iff

theorem headerCmd_headerByte (cmd : Cmd) (seq : Seq) : headerCmd (headerByte cmd seq) = cmd := by
  revert cmd seq; decide

theorem headerSeq_headerByte (cmd : Cmd) (seq : Seq) : headerSeq (headerByte cmd seq) = seq := by
  revert cmd seq; decide

theorem headerByte_fields (h : Byte) : headerByte (headerCmd h) (headerSeq h) = h := by
  revert h; decide

@[simp] theorem decode_nil : decode [] = .error .malformedFrame := rfl

@[simp] theorem decode_cons (h : Byte) (p : Bytes) :
    decode (h :: p) = .ok (Instr.ofFields (headerCmd h) (headerSeq h) p) := rfl

/-- Decoding fails on the empty frame only. -/
theorem decode_error_iff (b : Bytes) : (∃ e, decode b = .error e) ↔ b = [] := by
  cases b with
  | nil => exact ⟨fun _ => rfl, fun _ => ⟨.malformedFrame, rfl⟩⟩
  | cons => simp

/-- The eight values of a command field are the eight rows of R61. -/
theorem cmd_cases (c : Cmd) : c = cmdData ∨ c = cmdAck ∨ c = cmdResetReq ∨ c = cmdResetAck ∨
    c = 4 ∨ c = 5 ∨ c = 6 ∨ c = 7 := by
  revert c; decide

theorem ofFields_cmd (c : Cmd) (q : Seq) (p : Bytes) : (Instr.ofFields c q p).cmd = c := by
  rcases cmd_cases c with h | h | h | h | h | h | h | h <;> subst h <;> rfl

theorem ofFields_seq (c : Cmd) (q : Seq) (p : Bytes) : (Instr.ofFields c q p).seq = q := by
  rcases cmd_cases c with h | h | h | h | h | h | h | h <;> subst h <;> rfl

theorem ofFields_payload (c : Cmd) (q : Seq) (p : Bytes) : (Instr.ofFields c q p).payload = p := by
  rcases cmd_cases c with h | h | h | h | h | h | h | h <;> subst h <;> rfl

/-- Encoding answers the header and the payload, or the refusal of an oversize payload. -/
theorem encodeFrame_cases (c : Cmd) (q : Seq) (p : Bytes) :
    (p.length ≤ maxPayload ∧ encodeFrame c q p = .ok (headerByte c q :: p)) ∨
    (maxPayload < p.length ∧ encodeFrame c q p = .error (.oversizeFrame p.length)) := by
  unfold encodeFrame
  by_cases h : maxPayload < p.length
  · exact .inr ⟨h, if_pos h⟩
  · exact .inl ⟨Nat.le_of_not_lt h, if_neg h⟩

theorem encodeFrame_of_le (c : Cmd) (q : Seq) {p : Bytes} (h : p.length ≤ maxPayload) :
    encodeFrame c q p = .ok (headerByte c q :: p) :=
  if_neg (Nat.not_lt.mpr h)

end Sys2Proof
end

