-- ==== Sys2Proof/Laws/State.lean ====
section
/-!
SUPPORT. One lemma per field per update of the state, so that no proof unfolds a record update.
-/

namespace Sys2Proof.Machine

/-! ### `emit` (R10 `emit`) -/

@[simp] theorem emit_cfg (e : Event) (s : State) : (emit e s).cfg = s.cfg := rfl
@[simp] theorem emit_link (e : Event) (s : State) : (emit e s).link = s.link := rfl
@[simp] theorem emit_reqPending (e : Event) (s : State) : (emit e s).reqPending = s.reqPending := rfl
@[simp] theorem emit_resetAge (e : Event) (s : State) : (emit e s).resetAge = s.resetAge := rfl
@[simp] theorem emit_resetRetry (e : Event) (s : State) : (emit e s).resetRetry = s.resetRetry := rfl
@[simp] theorem emit_rstAckPending (e : Event) (s : State) : (emit e s).rstAckPending = s.rstAckPending := rfl
@[simp] theorem emit_rxq (e : Event) (s : State) : (emit e s).rxq = s.rxq := rfl
@[simp] theorem emit_rxCursor (e : Event) (s : State) : (emit e s).rxCursor = s.rxCursor := rfl
@[simp] theorem emit_lastDeliveredSeq (e : Event) (s : State) :
    (emit e s).lastDeliveredSeq =
      s.lastDeliveredSeq := rfl
@[simp] theorem emit_ackPending (e : Event) (s : State) : (emit e s).ackPending = s.ackPending := rfl
@[simp] theorem emit_txq (e : Event) (s : State) : (emit e s).txq = s.txq := rfl
@[simp] theorem emit_ofq (e : Event) (s : State) : (emit e s).ofq = s.ofq := rfl
@[simp] theorem emit_nextTxSeq (e : Event) (s : State) : (emit e s).nextTxSeq = s.nextTxSeq := rfl
@[simp] theorem emit_hold (e : Event) (s : State) : (emit e s).hold = s.hold := rfl
@[simp] theorem emit_waitAge (e : Event) (s : State) : (emit e s).waitAge = s.waitAge := rfl
@[simp] theorem emit_readySeen (e : Event) (s : State) : (emit e s).readySeen = s.readySeen := rfl
@[simp] theorem emit_trace (e : Event) (s : State) : (emit e s).trace = s.trace ++ [e] := rfl
@[simp] theorem emit_submitReply (e : Event) (s : State) : (emit e s).submitReply = s.submitReply := rfl
@[simp] theorem emit_waiting (e : Event) (s : State) : (emit e s).waiting = s.waiting := rfl
@[simp] theorem emit_script (e : Event) (s : State) : (emit e s).script = s.script := rfl
@[simp] theorem emit_steps (e : Event) (s : State) : (emit e s).steps = s.steps := rfl

/-! ### `attempt` (R96, one attempt) -/

@[simp] theorem attempt_cfg (f : Bytes) (r : DriverReply) (s : State) : (attempt f r s).cfg = s.cfg := rfl
@[simp] theorem attempt_link (f : Bytes) (r : DriverReply) (s : State) : (attempt f r s).link = s.link := rfl
@[simp] theorem attempt_reqPending (f : Bytes) (r : DriverReply) (s : State) :
    (attempt f r s).reqPending =
      s.reqPending := rfl
@[simp] theorem attempt_resetAge (f : Bytes) (r : DriverReply) (s : State) :
    (attempt f r s).resetAge =
      s.resetAge := rfl
@[simp] theorem attempt_resetRetry (f : Bytes) (r : DriverReply) (s : State) :
    (attempt f r s).resetRetry =
      s.resetRetry := rfl
@[simp] theorem attempt_rstAckPending (f : Bytes) (r : DriverReply) (s : State) :
    (attempt f r s).rstAckPending =
      s.rstAckPending := rfl
@[simp] theorem attempt_rxq (f : Bytes) (r : DriverReply) (s : State) : (attempt f r s).rxq = s.rxq := rfl
@[simp] theorem attempt_rxCursor (f : Bytes) (r : DriverReply) (s : State) :
    (attempt f r s).rxCursor =
      s.rxCursor := rfl
@[simp] theorem attempt_lastDeliveredSeq (f : Bytes) (r : DriverReply) (s : State) :
    (attempt f r s).lastDeliveredSeq =
      s.lastDeliveredSeq := rfl
@[simp] theorem attempt_ackPending (f : Bytes) (r : DriverReply) (s : State) :
    (attempt f r s).ackPending =
      s.ackPending := rfl
@[simp] theorem attempt_txq (f : Bytes) (r : DriverReply) (s : State) : (attempt f r s).txq = s.txq := rfl
@[simp] theorem attempt_ofq (f : Bytes) (r : DriverReply) (s : State) : (attempt f r s).ofq = s.ofq := rfl
@[simp] theorem attempt_nextTxSeq (f : Bytes) (r : DriverReply) (s : State) :
    (attempt f r s).nextTxSeq =
      s.nextTxSeq := rfl
@[simp] theorem attempt_hold (f : Bytes) (r : DriverReply) (s : State) : (attempt f r s).hold = s.hold := rfl
@[simp] theorem attempt_waitAge (f : Bytes) (r : DriverReply) (s : State) : (attempt f r s).waitAge = 0 := rfl
@[simp] theorem attempt_readySeen (f : Bytes) (r : DriverReply) (s : State) : (attempt f r s).readySeen = false := rfl
@[simp] theorem attempt_trace (f : Bytes) (r : DriverReply) (s : State) :
    (attempt f r s).trace =
      s.trace ++ [.wireTx f r] := rfl
@[simp] theorem attempt_submitReply (f : Bytes) (r : DriverReply) (s : State) :
    (attempt f r s).submitReply =
      s.submitReply := rfl
@[simp] theorem attempt_waiting (f : Bytes) (r : DriverReply) (s : State) : (attempt f r s).waiting = s.waiting := rfl
@[simp] theorem attempt_script (f : Bytes) (r : DriverReply) (s : State) : (attempt f r s).script = s.script := rfl
@[simp] theorem attempt_steps (f : Bytes) (r : DriverReply) (s : State) : (attempt f r s).steps = s.steps := rfl

/-! ### `clearSeqState` (R108) -/

@[simp] theorem clearSeqState_cfg (s : State) : (clearSeqState s).cfg = s.cfg := rfl
@[simp] theorem clearSeqState_link (s : State) : (clearSeqState s).link = s.link := rfl
@[simp] theorem clearSeqState_reqPending (s : State) : (clearSeqState s).reqPending = false := rfl
@[simp] theorem clearSeqState_resetAge (s : State) : (clearSeqState s).resetAge = 0 := rfl
@[simp] theorem clearSeqState_resetRetry (s : State) : (clearSeqState s).resetRetry = 0 := rfl
@[simp] theorem clearSeqState_rstAckPending (s : State) : (clearSeqState s).rstAckPending = false := rfl
@[simp] theorem clearSeqState_rxq (s : State) : (clearSeqState s).rxq = s.rxq := rfl
@[simp] theorem clearSeqState_rxCursor (s : State) : (clearSeqState s).rxCursor = 0 := rfl
@[simp] theorem clearSeqState_lastDeliveredSeq (s : State) : (clearSeqState s).lastDeliveredSeq = 31 := rfl
@[simp] theorem clearSeqState_ackPending (s : State) : (clearSeqState s).ackPending = false := rfl
@[simp] theorem clearSeqState_txq (s : State) : (clearSeqState s).txq = s.txq := rfl
@[simp] theorem clearSeqState_ofq (s : State) : (clearSeqState s).ofq = [] := rfl
@[simp] theorem clearSeqState_nextTxSeq (s : State) : (clearSeqState s).nextTxSeq = 0 := rfl
@[simp] theorem clearSeqState_hold (s : State) : (clearSeqState s).hold = none := rfl
@[simp] theorem clearSeqState_waitAge (s : State) : (clearSeqState s).waitAge = 0 := rfl
@[simp] theorem clearSeqState_readySeen (s : State) : (clearSeqState s).readySeen = false := rfl
@[simp] theorem clearSeqState_trace (s : State) : (clearSeqState s).trace = s.trace := rfl
@[simp] theorem clearSeqState_submitReply (s : State) : (clearSeqState s).submitReply = s.submitReply := rfl
@[simp] theorem clearSeqState_waiting (s : State) : (clearSeqState s).waiting = s.waiting := rfl
@[simp] theorem clearSeqState_script (s : State) : (clearSeqState s).script = s.script := rfl
@[simp] theorem clearSeqState_steps (s : State) : (clearSeqState s).steps = s.steps := rfl

/-! ### `localReset` (R110) -/

@[simp] theorem localReset_cfg (s : State) : (localReset s).cfg = s.cfg := rfl
@[simp] theorem localReset_link (s : State) : (localReset s).link = .await := rfl
@[simp] theorem localReset_reqPending (s : State) : (localReset s).reqPending = true := rfl
@[simp] theorem localReset_resetAge (s : State) : (localReset s).resetAge = 0 := rfl
@[simp] theorem localReset_resetRetry (s : State) : (localReset s).resetRetry = 0 := rfl
@[simp] theorem localReset_rstAckPending (s : State) : (localReset s).rstAckPending = false := rfl
@[simp] theorem localReset_rxq (s : State) : (localReset s).rxq = s.rxq := rfl
@[simp] theorem localReset_rxCursor (s : State) : (localReset s).rxCursor = 0 := rfl
@[simp] theorem localReset_lastDeliveredSeq (s : State) : (localReset s).lastDeliveredSeq = 31 := rfl
@[simp] theorem localReset_ackPending (s : State) : (localReset s).ackPending = false := rfl
@[simp] theorem localReset_txq (s : State) : (localReset s).txq = s.txq := rfl
@[simp] theorem localReset_ofq (s : State) : (localReset s).ofq = [] := rfl
@[simp] theorem localReset_nextTxSeq (s : State) : (localReset s).nextTxSeq = 0 := rfl
@[simp] theorem localReset_hold (s : State) : (localReset s).hold = none := rfl
@[simp] theorem localReset_waitAge (s : State) : (localReset s).waitAge = 0 := rfl
@[simp] theorem localReset_readySeen (s : State) : (localReset s).readySeen = false := rfl
@[simp] theorem localReset_trace (s : State) : (localReset s).trace = s.trace := rfl
@[simp] theorem localReset_submitReply (s : State) : (localReset s).submitReply = s.submitReply := rfl
@[simp] theorem localReset_waiting (s : State) : (localReset s).waiting = s.waiting := rfl
@[simp] theorem localReset_script (s : State) : (localReset s).script = s.script := rfl
@[simp] theorem localReset_steps (s : State) : (localReset s).steps = s.steps := rfl

/-! ### `peerReset` (R111) -/

@[simp] theorem peerReset_cfg (s : State) : (peerReset s).cfg = s.cfg := rfl
@[simp] theorem peerReset_link (s : State) : (peerReset s).link = .est := rfl
@[simp] theorem peerReset_reqPending (s : State) : (peerReset s).reqPending = false := rfl
@[simp] theorem peerReset_resetAge (s : State) : (peerReset s).resetAge = 0 := rfl
@[simp] theorem peerReset_resetRetry (s : State) : (peerReset s).resetRetry = 0 := rfl
@[simp] theorem peerReset_rstAckPending (s : State) : (peerReset s).rstAckPending = true := rfl
@[simp] theorem peerReset_rxq (s : State) : (peerReset s).rxq = s.rxq := rfl
@[simp] theorem peerReset_rxCursor (s : State) : (peerReset s).rxCursor = 0 := rfl
@[simp] theorem peerReset_lastDeliveredSeq (s : State) : (peerReset s).lastDeliveredSeq = 31 := rfl
@[simp] theorem peerReset_ackPending (s : State) : (peerReset s).ackPending = false := rfl
@[simp] theorem peerReset_txq (s : State) : (peerReset s).txq = s.txq := rfl
@[simp] theorem peerReset_ofq (s : State) : (peerReset s).ofq = [] := rfl
@[simp] theorem peerReset_nextTxSeq (s : State) : (peerReset s).nextTxSeq = 0 := rfl
@[simp] theorem peerReset_hold (s : State) : (peerReset s).hold = none := rfl
@[simp] theorem peerReset_waitAge (s : State) : (peerReset s).waitAge = 0 := rfl
@[simp] theorem peerReset_readySeen (s : State) : (peerReset s).readySeen = false := rfl
@[simp] theorem peerReset_trace (s : State) : (peerReset s).trace = s.trace := rfl
@[simp] theorem peerReset_submitReply (s : State) : (peerReset s).submitReply = s.submitReply := rfl
@[simp] theorem peerReset_waiting (s : State) : (peerReset s).waiting = s.waiting := rfl
@[simp] theorem peerReset_script (s : State) : (peerReset s).script = s.script := rfl
@[simp] theorem peerReset_steps (s : State) : (peerReset s).steps = s.steps := rfl

/-! ### `initSession` (R109) -/

@[simp] theorem initSession_cfg (s : State) : (initSession s).cfg = s.cfg := rfl
@[simp] theorem initSession_link (s : State) : (initSession s).link = .await := rfl
@[simp] theorem initSession_reqPending (s : State) : (initSession s).reqPending = true := rfl
@[simp] theorem initSession_resetAge (s : State) : (initSession s).resetAge = 0 := rfl
@[simp] theorem initSession_resetRetry (s : State) : (initSession s).resetRetry = 0 := rfl
@[simp] theorem initSession_rstAckPending (s : State) : (initSession s).rstAckPending = false := rfl
@[simp] theorem initSession_rxq (s : State) : (initSession s).rxq = [] := rfl
@[simp] theorem initSession_rxCursor (s : State) : (initSession s).rxCursor = 0 := rfl
@[simp] theorem initSession_lastDeliveredSeq (s : State) : (initSession s).lastDeliveredSeq = 31 := rfl
@[simp] theorem initSession_ackPending (s : State) : (initSession s).ackPending = false := rfl
@[simp] theorem initSession_txq (s : State) : (initSession s).txq = [] := rfl
@[simp] theorem initSession_ofq (s : State) : (initSession s).ofq = [] := rfl
@[simp] theorem initSession_nextTxSeq (s : State) : (initSession s).nextTxSeq = 0 := rfl
@[simp] theorem initSession_hold (s : State) : (initSession s).hold = none := rfl
@[simp] theorem initSession_waitAge (s : State) : (initSession s).waitAge = 0 := rfl
@[simp] theorem initSession_readySeen (s : State) : (initSession s).readySeen = false := rfl
@[simp] theorem initSession_trace (s : State) : (initSession s).trace = s.trace := rfl
@[simp] theorem initSession_submitReply (s : State) : (initSession s).submitReply = s.submitReply := rfl
@[simp] theorem initSession_waiting (s : State) : (initSession s).waiting = s.waiting := rfl
@[simp] theorem initSession_script (s : State) : (initSession s).script = s.script := rfl
@[simp] theorem initSession_steps (s : State) : (initSession s).steps = s.steps := rfl

/-! ### `dropHold` (R112) -/

@[simp] theorem dropHold_cfg (s : State) : (dropHold s).cfg = s.cfg := rfl
@[simp] theorem dropHold_link (s : State) : (dropHold s).link = s.link := rfl
@[simp] theorem dropHold_reqPending (s : State) : (dropHold s).reqPending = s.reqPending := rfl
@[simp] theorem dropHold_resetAge (s : State) : (dropHold s).resetAge = s.resetAge := rfl
@[simp] theorem dropHold_resetRetry (s : State) : (dropHold s).resetRetry = s.resetRetry := rfl
@[simp] theorem dropHold_rstAckPending (s : State) : (dropHold s).rstAckPending = s.rstAckPending := rfl
@[simp] theorem dropHold_rxq (s : State) : (dropHold s).rxq = s.rxq := rfl
@[simp] theorem dropHold_rxCursor (s : State) : (dropHold s).rxCursor = s.rxCursor := rfl
@[simp] theorem dropHold_lastDeliveredSeq (s : State) : (dropHold s).lastDeliveredSeq = s.lastDeliveredSeq := rfl
@[simp] theorem dropHold_ackPending (s : State) : (dropHold s).ackPending = s.ackPending := rfl
@[simp] theorem dropHold_txq (s : State) : (dropHold s).txq = s.txq := rfl
@[simp] theorem dropHold_ofq (s : State) : (dropHold s).ofq = s.ofq := rfl
@[simp] theorem dropHold_nextTxSeq (s : State) : (dropHold s).nextTxSeq = s.nextTxSeq := rfl
@[simp] theorem dropHold_hold (s : State) : (dropHold s).hold = none := rfl
@[simp] theorem dropHold_waitAge (s : State) : (dropHold s).waitAge = 0 := rfl
@[simp] theorem dropHold_readySeen (s : State) : (dropHold s).readySeen = false := rfl
@[simp] theorem dropHold_trace (s : State) : (dropHold s).trace = s.trace := rfl
@[simp] theorem dropHold_submitReply (s : State) : (dropHold s).submitReply = s.submitReply := rfl
@[simp] theorem dropHold_waiting (s : State) : (dropHold s).waiting = s.waiting := rfl
@[simp] theorem dropHold_script (s : State) : (dropHold s).script = s.script := rfl
@[simp] theorem dropHold_steps (s : State) : (dropHold s).steps = s.steps := rfl

/-! ### `establish` (R112) -/

@[simp] theorem establish_cfg (s : State) : (establish s).cfg = s.cfg := rfl
@[simp] theorem establish_link (s : State) : (establish s).link = .est := rfl
@[simp] theorem establish_reqPending (s : State) : (establish s).reqPending = false := rfl
@[simp] theorem establish_resetAge (s : State) : (establish s).resetAge = 0 := rfl
@[simp] theorem establish_resetRetry (s : State) : (establish s).resetRetry = 0 := rfl
@[simp] theorem establish_rstAckPending (s : State) : (establish s).rstAckPending = s.rstAckPending := rfl
@[simp] theorem establish_rxq (s : State) : (establish s).rxq = s.rxq := rfl
@[simp] theorem establish_rxCursor (s : State) : (establish s).rxCursor = s.rxCursor := rfl
@[simp] theorem establish_lastDeliveredSeq (s : State) : (establish s).lastDeliveredSeq = s.lastDeliveredSeq := rfl
@[simp] theorem establish_ackPending (s : State) : (establish s).ackPending = s.ackPending := rfl
@[simp] theorem establish_txq (s : State) : (establish s).txq = s.txq := rfl
@[simp] theorem establish_ofq (s : State) : (establish s).ofq = s.ofq := rfl
@[simp] theorem establish_nextTxSeq (s : State) : (establish s).nextTxSeq = s.nextTxSeq := rfl
@[simp] theorem establish_hold (s : State) : (establish s).hold = s.hold := rfl
@[simp] theorem establish_waitAge (s : State) : (establish s).waitAge = s.waitAge := rfl
@[simp] theorem establish_readySeen (s : State) : (establish s).readySeen = s.readySeen := rfl
@[simp] theorem establish_trace (s : State) : (establish s).trace = s.trace := rfl
@[simp] theorem establish_submitReply (s : State) : (establish s).submitReply = s.submitReply := rfl
@[simp] theorem establish_waiting (s : State) : (establish s).waiting = s.waiting := rfl
@[simp] theorem establish_script (s : State) : (establish s).script = s.script := rfl
@[simp] theorem establish_steps (s : State) : (establish s).steps = s.steps := rfl

/-! ### `retire` (R105) -/

@[simp] theorem retire_cfg (a : Seq) (s : State) : (retire a s).cfg = s.cfg := rfl
@[simp] theorem retire_link (a : Seq) (s : State) : (retire a s).link = s.link := rfl
@[simp] theorem retire_reqPending (a : Seq) (s : State) : (retire a s).reqPending = s.reqPending := rfl
@[simp] theorem retire_resetAge (a : Seq) (s : State) : (retire a s).resetAge = s.resetAge := rfl
@[simp] theorem retire_resetRetry (a : Seq) (s : State) : (retire a s).resetRetry = s.resetRetry := rfl
@[simp] theorem retire_rstAckPending (a : Seq) (s : State) : (retire a s).rstAckPending = s.rstAckPending := rfl
@[simp] theorem retire_rxq (a : Seq) (s : State) : (retire a s).rxq = s.rxq := rfl
@[simp] theorem retire_rxCursor (a : Seq) (s : State) : (retire a s).rxCursor = s.rxCursor := rfl
@[simp] theorem retire_lastDeliveredSeq (a : Seq) (s : State) :
    (retire a s).lastDeliveredSeq =
      s.lastDeliveredSeq := rfl
@[simp] theorem retire_ackPending (a : Seq) (s : State) : (retire a s).ackPending = s.ackPending := rfl
@[simp] theorem retire_txq (a : Seq) (s : State) : (retire a s).txq = s.txq := rfl
@[simp] theorem retire_ofq (a : Seq) (s : State) : (retire a s).ofq = s.ofq.filter fun e => !seqLe e.seq a := rfl
@[simp] theorem retire_nextTxSeq (a : Seq) (s : State) : (retire a s).nextTxSeq = s.nextTxSeq := rfl
@[simp] theorem retire_hold (a : Seq) (s : State) : (retire a s).hold = s.hold := rfl
@[simp] theorem retire_waitAge (a : Seq) (s : State) : (retire a s).waitAge = s.waitAge := rfl
@[simp] theorem retire_readySeen (a : Seq) (s : State) : (retire a s).readySeen = s.readySeen := rfl
@[simp] theorem retire_trace (a : Seq) (s : State) : (retire a s).trace = s.trace := rfl
@[simp] theorem retire_submitReply (a : Seq) (s : State) : (retire a s).submitReply = s.submitReply := rfl
@[simp] theorem retire_waiting (a : Seq) (s : State) : (retire a s).waiting = s.waiting := rfl
@[simp] theorem retire_script (a : Seq) (s : State) : (retire a s).script = s.script := rfl
@[simp] theorem retire_steps (a : Seq) (s : State) : (retire a s).steps = s.steps := rfl

/-! ### `dataInOrder` (R86) -/

@[simp] theorem dataInOrder_cfg (q : Seq) (p : Bytes) (s : State) : (dataInOrder q p s).cfg = s.cfg := rfl
@[simp] theorem dataInOrder_link (q : Seq) (p : Bytes) (s : State) : (dataInOrder q p s).link = s.link := rfl
@[simp] theorem dataInOrder_reqPending (q : Seq) (p : Bytes) (s : State) :
    (dataInOrder q p s).reqPending =
      s.reqPending := rfl
@[simp] theorem dataInOrder_resetAge (q : Seq) (p : Bytes) (s : State) :
    (dataInOrder q p s).resetAge =
      s.resetAge := rfl
@[simp] theorem dataInOrder_resetRetry (q : Seq) (p : Bytes) (s : State) :
    (dataInOrder q p s).resetRetry =
      s.resetRetry := rfl
@[simp] theorem dataInOrder_rstAckPending (q : Seq) (p : Bytes) (s : State) :
    (dataInOrder q p s).rstAckPending =
      s.rstAckPending := rfl
@[simp] theorem dataInOrder_rxq (q : Seq) (p : Bytes) (s : State) : (dataInOrder q p s).rxq = s.rxq := rfl
@[simp] theorem dataInOrder_rxCursor (q : Seq) (p : Bytes) (s : State) :
    (dataInOrder q p s).rxCursor =
      seqInc q := rfl
@[simp] theorem dataInOrder_lastDeliveredSeq (q : Seq) (p : Bytes) (s : State) :
    (dataInOrder q p s).lastDeliveredSeq =
      q := rfl
@[simp] theorem dataInOrder_ackPending (q : Seq) (p : Bytes) (s : State) :
    (dataInOrder q p s).ackPending =
      true := rfl
@[simp] theorem dataInOrder_txq (q : Seq) (p : Bytes) (s : State) : (dataInOrder q p s).txq = s.txq := rfl
@[simp] theorem dataInOrder_ofq (q : Seq) (p : Bytes) (s : State) : (dataInOrder q p s).ofq = s.ofq := rfl
@[simp] theorem dataInOrder_nextTxSeq (q : Seq) (p : Bytes) (s : State) :
    (dataInOrder q p s).nextTxSeq =
      s.nextTxSeq := rfl
@[simp] theorem dataInOrder_hold (q : Seq) (p : Bytes) (s : State) : (dataInOrder q p s).hold = s.hold := rfl
@[simp] theorem dataInOrder_waitAge (q : Seq) (p : Bytes) (s : State) : (dataInOrder q p s).waitAge = s.waitAge := rfl
@[simp] theorem dataInOrder_readySeen (q : Seq) (p : Bytes) (s : State) :
    (dataInOrder q p s).readySeen =
      s.readySeen := rfl
@[simp] theorem dataInOrder_trace (q : Seq) (p : Bytes) (s : State) :
    (dataInOrder q p s).trace =
      s.trace ++ [.deliver p] := rfl
@[simp] theorem dataInOrder_submitReply (q : Seq) (p : Bytes) (s : State) :
    (dataInOrder q p s).submitReply =
      s.submitReply := rfl
@[simp] theorem dataInOrder_waiting (q : Seq) (p : Bytes) (s : State) : (dataInOrder q p s).waiting = s.waiting := rfl
@[simp] theorem dataInOrder_script (q : Seq) (p : Bytes) (s : State) : (dataInOrder q p s).script = s.script := rfl
@[simp] theorem dataInOrder_steps (q : Seq) (p : Bytes) (s : State) : (dataInOrder q p s).steps = s.steps := rfl

/-! ### `dataDuplicate` (R87) -/

@[simp] theorem dataDuplicate_cfg (s : State) : (dataDuplicate s).cfg = s.cfg := rfl
@[simp] theorem dataDuplicate_link (s : State) : (dataDuplicate s).link = s.link := rfl
@[simp] theorem dataDuplicate_reqPending (s : State) : (dataDuplicate s).reqPending = s.reqPending := rfl
@[simp] theorem dataDuplicate_resetAge (s : State) : (dataDuplicate s).resetAge = s.resetAge := rfl
@[simp] theorem dataDuplicate_resetRetry (s : State) : (dataDuplicate s).resetRetry = s.resetRetry := rfl
@[simp] theorem dataDuplicate_rstAckPending (s : State) : (dataDuplicate s).rstAckPending = s.rstAckPending := rfl
@[simp] theorem dataDuplicate_rxq (s : State) : (dataDuplicate s).rxq = s.rxq := rfl
@[simp] theorem dataDuplicate_rxCursor (s : State) : (dataDuplicate s).rxCursor = s.rxCursor := rfl
@[simp] theorem dataDuplicate_lastDeliveredSeq (s : State) :
    (dataDuplicate s).lastDeliveredSeq =
      s.lastDeliveredSeq := rfl
@[simp] theorem dataDuplicate_ackPending (s : State) : (dataDuplicate s).ackPending = true := rfl
@[simp] theorem dataDuplicate_txq (s : State) : (dataDuplicate s).txq = s.txq := rfl
@[simp] theorem dataDuplicate_ofq (s : State) : (dataDuplicate s).ofq = s.ofq := rfl
@[simp] theorem dataDuplicate_nextTxSeq (s : State) : (dataDuplicate s).nextTxSeq = s.nextTxSeq := rfl
@[simp] theorem dataDuplicate_hold (s : State) : (dataDuplicate s).hold = s.hold := rfl
@[simp] theorem dataDuplicate_waitAge (s : State) : (dataDuplicate s).waitAge = s.waitAge := rfl
@[simp] theorem dataDuplicate_readySeen (s : State) : (dataDuplicate s).readySeen = s.readySeen := rfl
@[simp] theorem dataDuplicate_trace (s : State) : (dataDuplicate s).trace = s.trace := rfl
@[simp] theorem dataDuplicate_submitReply (s : State) : (dataDuplicate s).submitReply = s.submitReply := rfl
@[simp] theorem dataDuplicate_waiting (s : State) : (dataDuplicate s).waiting = s.waiting := rfl
@[simp] theorem dataDuplicate_script (s : State) : (dataDuplicate s).script = s.script := rfl
@[simp] theorem dataDuplicate_steps (s : State) : (dataDuplicate s).steps = s.steps := rfl

/-! ### `enqueuePayload` (R94) -/

@[simp] theorem enqueuePayload_cfg (p : Bytes) (s : State) : (enqueuePayload p s).cfg = s.cfg := rfl
@[simp] theorem enqueuePayload_link (p : Bytes) (s : State) : (enqueuePayload p s).link = s.link := rfl
@[simp] theorem enqueuePayload_reqPending (p : Bytes) (s : State) :
    (enqueuePayload p s).reqPending =
      s.reqPending := rfl
@[simp] theorem enqueuePayload_resetAge (p : Bytes) (s : State) : (enqueuePayload p s).resetAge = s.resetAge := rfl
@[simp] theorem enqueuePayload_resetRetry (p : Bytes) (s : State) :
    (enqueuePayload p s).resetRetry =
      s.resetRetry := rfl
@[simp] theorem enqueuePayload_rstAckPending (p : Bytes) (s : State) :
    (enqueuePayload p s).rstAckPending =
      s.rstAckPending := rfl
@[simp] theorem enqueuePayload_rxq (p : Bytes) (s : State) : (enqueuePayload p s).rxq = s.rxq := rfl
@[simp] theorem enqueuePayload_rxCursor (p : Bytes) (s : State) : (enqueuePayload p s).rxCursor = s.rxCursor := rfl
@[simp] theorem enqueuePayload_lastDeliveredSeq (p : Bytes) (s : State) :
    (enqueuePayload p s).lastDeliveredSeq =
      s.lastDeliveredSeq := rfl
@[simp] theorem enqueuePayload_ackPending (p : Bytes) (s : State) :
    (enqueuePayload p s).ackPending =
      s.ackPending := rfl
@[simp] theorem enqueuePayload_txq (p : Bytes) (s : State) : (enqueuePayload p s).txq = s.txq ++ [p] := rfl
@[simp] theorem enqueuePayload_ofq (p : Bytes) (s : State) : (enqueuePayload p s).ofq = s.ofq := rfl
@[simp] theorem enqueuePayload_nextTxSeq (p : Bytes) (s : State) : (enqueuePayload p s).nextTxSeq = s.nextTxSeq := rfl
@[simp] theorem enqueuePayload_hold (p : Bytes) (s : State) : (enqueuePayload p s).hold = s.hold := rfl
@[simp] theorem enqueuePayload_waitAge (p : Bytes) (s : State) : (enqueuePayload p s).waitAge = s.waitAge := rfl
@[simp] theorem enqueuePayload_readySeen (p : Bytes) (s : State) : (enqueuePayload p s).readySeen = s.readySeen := rfl
@[simp] theorem enqueuePayload_trace (p : Bytes) (s : State) : (enqueuePayload p s).trace = s.trace := rfl
@[simp] theorem enqueuePayload_submitReply (p : Bytes) (s : State) :
    (enqueuePayload p s).submitReply =
      some .accepted := rfl
@[simp] theorem enqueuePayload_waiting (p : Bytes) (s : State) : (enqueuePayload p s).waiting = s.waiting := rfl
@[simp] theorem enqueuePayload_script (p : Bytes) (s : State) : (enqueuePayload p s).script = s.script := rfl
@[simp] theorem enqueuePayload_steps (p : Bytes) (s : State) : (enqueuePayload p s).steps = s.steps := rfl

/-! ### `tick` (R125) -/

@[simp] theorem tick_cfg (s : State) : (tick s).cfg = s.cfg := rfl
@[simp] theorem tick_link (s : State) : (tick s).link = s.link := rfl
@[simp] theorem tick_reqPending (s : State) : (tick s).reqPending = s.reqPending := rfl
@[simp] theorem tick_resetAge (s : State) :
    (tick s).resetAge =
      if s.link = .await ∧ s.reqPending = false then saturate s.resetAge s.cfg.resetRtoTicks else s.resetAge := rfl
@[simp] theorem tick_resetRetry (s : State) : (tick s).resetRetry = s.resetRetry := rfl
@[simp] theorem tick_rstAckPending (s : State) : (tick s).rstAckPending = s.rstAckPending := rfl
@[simp] theorem tick_rxq (s : State) : (tick s).rxq = s.rxq := rfl
@[simp] theorem tick_rxCursor (s : State) : (tick s).rxCursor = s.rxCursor := rfl
@[simp] theorem tick_lastDeliveredSeq (s : State) : (tick s).lastDeliveredSeq = s.lastDeliveredSeq := rfl
@[simp] theorem tick_ackPending (s : State) : (tick s).ackPending = s.ackPending := rfl
@[simp] theorem tick_txq (s : State) : (tick s).txq = s.txq := rfl
@[simp] theorem tick_ofq (s : State) :
    (tick s).ofq =
      s.ofq.map fun e => { e with age := saturate e.age s.cfg.rtoTicks } := rfl
@[simp] theorem tick_nextTxSeq (s : State) : (tick s).nextTxSeq = s.nextTxSeq := rfl
@[simp] theorem tick_hold (s : State) : (tick s).hold = s.hold := rfl
@[simp] theorem tick_waitAge (s : State) :
    (tick s).waitAge =
      if s.hold.isSome then saturate s.waitAge s.cfg.busyWaitTicks else s.waitAge := rfl
@[simp] theorem tick_readySeen (s : State) : (tick s).readySeen = s.readySeen := rfl
@[simp] theorem tick_trace (s : State) : (tick s).trace = s.trace := rfl
@[simp] theorem tick_submitReply (s : State) : (tick s).submitReply = s.submitReply := rfl
@[simp] theorem tick_waiting (s : State) : (tick s).waiting = s.waiting := rfl
@[simp] theorem tick_script (s : State) : (tick s).script = s.script := rfl
@[simp] theorem tick_steps (s : State) : (tick s).steps = s.steps := rfl

/-! ### `countRetx` (R102) -/

@[simp] theorem countRetx_cfg (s : State) : (countRetx s).cfg = s.cfg := rfl
@[simp] theorem countRetx_link (s : State) : (countRetx s).link = s.link := rfl
@[simp] theorem countRetx_reqPending (s : State) : (countRetx s).reqPending = s.reqPending := rfl
@[simp] theorem countRetx_resetAge (s : State) : (countRetx s).resetAge = s.resetAge := rfl
@[simp] theorem countRetx_resetRetry (s : State) : (countRetx s).resetRetry = s.resetRetry := rfl
@[simp] theorem countRetx_rstAckPending (s : State) : (countRetx s).rstAckPending = s.rstAckPending := rfl
@[simp] theorem countRetx_rxq (s : State) : (countRetx s).rxq = s.rxq := rfl
@[simp] theorem countRetx_rxCursor (s : State) : (countRetx s).rxCursor = s.rxCursor := rfl
@[simp] theorem countRetx_lastDeliveredSeq (s : State) : (countRetx s).lastDeliveredSeq = s.lastDeliveredSeq := rfl
@[simp] theorem countRetx_ackPending (s : State) : (countRetx s).ackPending = s.ackPending := rfl
@[simp] theorem countRetx_txq (s : State) : (countRetx s).txq = s.txq := rfl
@[simp] theorem countRetx_ofq (s : State) :
    (countRetx s).ofq =
      updateNth s.expired (fun e => { e with retx := e.retx + 1 }) 0 s.ofq := rfl
@[simp] theorem countRetx_nextTxSeq (s : State) : (countRetx s).nextTxSeq = s.nextTxSeq := rfl
@[simp] theorem countRetx_hold (s : State) : (countRetx s).hold = s.hold := rfl
@[simp] theorem countRetx_waitAge (s : State) : (countRetx s).waitAge = s.waitAge := rfl
@[simp] theorem countRetx_readySeen (s : State) : (countRetx s).readySeen = s.readySeen := rfl
@[simp] theorem countRetx_trace (s : State) : (countRetx s).trace = s.trace := rfl
@[simp] theorem countRetx_submitReply (s : State) : (countRetx s).submitReply = s.submitReply := rfl
@[simp] theorem countRetx_waiting (s : State) : (countRetx s).waiting = s.waiting := rfl
@[simp] theorem countRetx_script (s : State) : (countRetx s).script = s.script := rfl
@[simp] theorem countRetx_steps (s : State) : (countRetx s).steps = s.steps := rfl

/-! ### `recordNewData` (R104) -/

@[simp] theorem recordNewData_cfg (p : Bytes) (l : List Bytes) (s : State) : (recordNewData p l s).cfg = s.cfg := rfl
@[simp] theorem recordNewData_link (p : Bytes) (l : List Bytes) (s : State) :
    (recordNewData p l s).link =
      s.link := rfl
@[simp] theorem recordNewData_reqPending (p : Bytes) (l : List Bytes) (s : State) :
    (recordNewData p l s).reqPending =
      s.reqPending := rfl
@[simp] theorem recordNewData_resetAge (p : Bytes) (l : List Bytes) (s : State) :
    (recordNewData p l s).resetAge =
      s.resetAge := rfl
@[simp] theorem recordNewData_resetRetry (p : Bytes) (l : List Bytes) (s : State) :
    (recordNewData p l s).resetRetry =
      s.resetRetry := rfl
@[simp] theorem recordNewData_rstAckPending (p : Bytes) (l : List Bytes) (s : State) :
    (recordNewData p l s).rstAckPending =
      s.rstAckPending := rfl
@[simp] theorem recordNewData_rxq (p : Bytes) (l : List Bytes) (s : State) : (recordNewData p l s).rxq = s.rxq := rfl
@[simp] theorem recordNewData_rxCursor (p : Bytes) (l : List Bytes) (s : State) :
    (recordNewData p l s).rxCursor =
      s.rxCursor := rfl
@[simp] theorem recordNewData_lastDeliveredSeq (p : Bytes) (l : List Bytes) (s : State) :
    (recordNewData p l s).lastDeliveredSeq =
      s.lastDeliveredSeq := rfl
@[simp] theorem recordNewData_ackPending (p : Bytes) (l : List Bytes) (s : State) :
    (recordNewData p l s).ackPending =
      s.ackPending := rfl
@[simp] theorem recordNewData_txq (p : Bytes) (l : List Bytes) (s : State) : (recordNewData p l s).txq = l := rfl
@[simp] theorem recordNewData_ofq (p : Bytes) (l : List Bytes) (s : State) :
    (recordNewData p l s).ofq =
      s.ofq ++ [⟨s.nextTxSeq, p, 0, 0⟩] := rfl
@[simp] theorem recordNewData_nextTxSeq (p : Bytes) (l : List Bytes) (s : State) :
    (recordNewData p l s).nextTxSeq =
      seqInc s.nextTxSeq := rfl
@[simp] theorem recordNewData_hold (p : Bytes) (l : List Bytes) (s : State) :
    (recordNewData p l s).hold =
      s.hold := rfl
@[simp] theorem recordNewData_waitAge (p : Bytes) (l : List Bytes) (s : State) :
    (recordNewData p l s).waitAge =
      s.waitAge := rfl
@[simp] theorem recordNewData_readySeen (p : Bytes) (l : List Bytes) (s : State) :
    (recordNewData p l s).readySeen =
      s.readySeen := rfl
@[simp] theorem recordNewData_trace (p : Bytes) (l : List Bytes) (s : State) :
    (recordNewData p l s).trace =
      s.trace := rfl
@[simp] theorem recordNewData_submitReply (p : Bytes) (l : List Bytes) (s : State) :
    (recordNewData p l s).submitReply =
      s.submitReply := rfl
@[simp] theorem recordNewData_waiting (p : Bytes) (l : List Bytes) (s : State) :
    (recordNewData p l s).waiting =
      s.waiting := rfl
@[simp] theorem recordNewData_script (p : Bytes) (l : List Bytes) (s : State) :
    (recordNewData p l s).script =
      s.script := rfl
@[simp] theorem recordNewData_steps (p : Bytes) (l : List Bytes) (s : State) :
    (recordNewData p l s).steps =
      s.steps := rfl

/-! ### `spendTurn` (log 2) -/

@[simp] theorem spendTurn_cfg (s : State) : (spendTurn s).cfg = s.cfg := rfl
@[simp] theorem spendTurn_link (s : State) : (spendTurn s).link = s.link := rfl
@[simp] theorem spendTurn_reqPending (s : State) : (spendTurn s).reqPending = s.reqPending := rfl
@[simp] theorem spendTurn_resetAge (s : State) : (spendTurn s).resetAge = s.resetAge := rfl
@[simp] theorem spendTurn_resetRetry (s : State) : (spendTurn s).resetRetry = s.resetRetry := rfl
@[simp] theorem spendTurn_rstAckPending (s : State) : (spendTurn s).rstAckPending = s.rstAckPending := rfl
@[simp] theorem spendTurn_rxq (s : State) : (spendTurn s).rxq = s.rxq := rfl
@[simp] theorem spendTurn_rxCursor (s : State) : (spendTurn s).rxCursor = s.rxCursor := rfl
@[simp] theorem spendTurn_lastDeliveredSeq (s : State) : (spendTurn s).lastDeliveredSeq = s.lastDeliveredSeq := rfl
@[simp] theorem spendTurn_ackPending (s : State) : (spendTurn s).ackPending = s.ackPending := rfl
@[simp] theorem spendTurn_txq (s : State) : (spendTurn s).txq = s.txq := rfl
@[simp] theorem spendTurn_ofq (s : State) : (spendTurn s).ofq = s.ofq := rfl
@[simp] theorem spendTurn_nextTxSeq (s : State) : (spendTurn s).nextTxSeq = s.nextTxSeq := rfl
@[simp] theorem spendTurn_hold (s : State) : (spendTurn s).hold = s.hold := rfl
@[simp] theorem spendTurn_waitAge (s : State) : (spendTurn s).waitAge = s.waitAge := rfl
@[simp] theorem spendTurn_readySeen (s : State) : (spendTurn s).readySeen = s.readySeen := rfl
@[simp] theorem spendTurn_trace (s : State) : (spendTurn s).trace = s.trace := rfl
@[simp] theorem spendTurn_submitReply (s : State) : (spendTurn s).submitReply = s.submitReply := rfl
@[simp] theorem spendTurn_waiting (s : State) : (spendTurn s).waiting = s.waiting := rfl
@[simp] theorem spendTurn_script (s : State) : (spendTurn s).script = s.script.tail := rfl
@[simp] theorem spendTurn_steps (s : State) : (spendTurn s).steps = s.steps + 1 := rfl

end Sys2Proof.Machine
end

