-- ==== Sys2Proof/Laws/Ops.lean ====
section
/-!
SUPPORT. What each shared operation can do, said once: updates of one entry, acceptance, the send primitive, completion,
and the actions of the TX step.
-/

namespace Sys2Proof.Machine

/-! ### Updating one entry -/

/-- `updateNth` changes nothing, or exactly one element, one the predicate holds of. -/
theorem updateNth_cases (p : Entry → Bool) (f : Entry → Entry) (k : Nat) (l : List Entry) :
    updateNth p f k l = l ∨
      ∃ pre e post, l = pre ++ e :: post ∧ p e = true ∧ updateNth p f k l = pre ++ f e :: post := by
  induction l generalizing k with
  | nil => exact .inl rfl
  | cons e es ih =>
    unfold updateNth
    by_cases hp : p e = true
    · rw [if_pos hp]
      cases k with
      | zero => exact .inr ⟨[], e, es, rfl, hp, rfl⟩
      | succ k =>
        rcases ih k with h | ⟨pre, x, post, hl, hx, h⟩
        · exact .inl (by simp [h])
        · exact .inr ⟨e :: pre, x, post, by rw [hl]; rfl, hx, by simp [h]⟩
    · rw [if_neg hp]
      rcases ih k with h | ⟨pre, x, post, hl, hx, h⟩
      · exact .inl (by rw [h])
      · exact .inr ⟨e :: pre, x, post, by rw [hl]; rfl, hx, by rw [h]; rfl⟩

/-- A projection that `f` keeps is kept by `updateNth`. -/
theorem map_updateNth {β : Type} (g : Entry → β) (p : Entry → Bool) (f : Entry → Entry) (k : Nat)
    (l : List Entry) (hf : ∀ e, g (f e) = g e) : (updateNth p f k l).map g = l.map g := by
  rcases updateNth_cases p f k l with h | ⟨pre, e, post, hl, _, h⟩
  · rw [h]
  · rw [h, hl]; simp [hf]

/-- Every element after `updateNth` is an old one or `f` of an old one the predicate holds of. -/
theorem mem_updateNth {p : Entry → Bool} {f : Entry → Entry} {k : Nat} {l : List Entry} {x : Entry}
    (hx : x ∈ updateNth p f k l) : x ∈ l ∨ ∃ e ∈ l, p e = true ∧ x = f e := by
  rcases updateNth_cases p f k l with h | ⟨pre, e, post, hl, hp, h⟩
  · exact .inl (h ▸ hx)
  · rw [h] at hx
    simp only [List.mem_append, List.mem_cons] at hx
    rcases hx with hx | rfl | hx
    · exact .inl (by rw [hl]; simp [hx])
    · exact .inr ⟨e, by rw [hl]; simp, hp, rfl⟩
    · exact .inl (by rw [hl]; simp [hx])

@[simp] theorem length_updateNth (p : Entry → Bool) (f : Entry → Entry) (k : Nat) (l : List Entry) :
    (updateNth p f k l).length = l.length := by
  rcases updateNth_cases p f k l with h | ⟨pre, e, post, hl, _, h⟩
  · rw [h]
  · rw [h, hl]; simp

/-- The first element the predicate holds of is the one index 0 updates. -/
theorem updateNth_zero (p : Entry → Bool) (f : Entry → Entry) (pre post : List Entry) (e : Entry)
    (hpre : ∀ x ∈ pre, p x = false) (he : p e = true) :
    updateNth p f 0 (pre ++ e :: post) = pre ++ f e :: post := by
  induction pre with
  | nil => simp [updateNth, he]
  | cons x xs ih =>
    have hx : p x = false := hpre x (by simp)
    simp only [List.cons_append, updateNth, hx, Bool.false_eq_true, if_false]
    rw [ih fun y hy => hpre y (by simp [hy])]

/-- With no element the predicate holds of, nothing is updated. -/
theorem updateNth_none (p : Entry → Bool) (f : Entry → Entry) (k : Nat) (l : List Entry)
    (h : ∀ x ∈ l, p x = false) : updateNth p f k l = l := by
  rcases updateNth_cases p f k l with hu | ⟨pre, e, post, hl, hp, _⟩
  · exact hu
  · simp [h e (by rw [hl]; simp)] at hp

/-- With more than `k` elements the predicate holds of, exactly one of them is updated. -/
theorem updateNth_of_lt (p : Entry → Bool) (f : Entry → Entry) (k : Nat) (l : List Entry) (hk : k < l.countP p) :
    ∃ pre e post, l = pre ++ e :: post ∧ p e = true ∧ updateNth p f k l = pre ++ f e :: post := by
  induction l generalizing k with
  | nil => simp at hk
  | cons e es ih =>
    unfold updateNth
    by_cases hp : p e = true
    · rw [if_pos hp]
      cases k with
      | zero => exact ⟨[], e, es, rfl, hp, rfl⟩
      | succ k =>
        obtain ⟨pre, x, post, hl, hx, h⟩ := ih k (by simpa [List.countP_cons, hp] using hk)
        exact ⟨e :: pre, x, post, by rw [hl]; rfl, hx, by simp [h]⟩
    · rw [if_neg hp]
      obtain ⟨pre, x, post, hl, hx, h⟩ := ih k (by simpa [List.countP_cons, hp] using hk)
      exact ⟨e :: pre, x, post, by rw [hl]; rfl, hx, by rw [h]; rfl⟩

/-! ### Acceptance (R97) -/

/-- With an entry of that number, exactly one such entry's age restarts, whichever the free value takes. -/
theorem restartAge_one {q : Seq} (d : Nat) {l : List Entry} (h : ∃ e ∈ l, e.seq = q) :
    OneRestarted q (restartAge q d l) l := by
  obtain ⟨e, he, hq⟩ := h
  have hpos : 0 < l.countP fun e => e.seq == q := List.countP_pos_iff.2 ⟨e, he, by simpa using hq⟩
  have hk : acceptedIndex (l.countP fun e => e.seq == q) d < l.countP fun e => e.seq == q := by
    unfold acceptedIndex
    split
    · exact hpos
    · exact Nat.mod_lt _ hpos
  obtain ⟨pre, x, post, hl, hx, hu⟩ := updateNth_of_lt _ (fun e => { e with age := 0 }) _ l hk
  exact ⟨pre, x, post, hl, by simpa using hx, hu⟩

/-- With no entry of that number, nothing restarts. -/
theorem restartAge_none {q : Seq} (d : Nat) {l : List Entry} (h : ¬ ∃ e ∈ l, e.seq = q) :
    restartAge q d l = l :=
  updateNth_none _ _ _ _ fun x hx => by simpa using fun hq => h ⟨x, hx, hq⟩

@[simp] theorem Entry.untimed_age (e : Entry) (n : Nat) : Entry.untimed { e with age := n } = e.untimed := rfl

@[simp] theorem Entry.untimed_seq (e : Entry) : e.untimed.seq = e.seq := rfl

@[simp] theorem Entry.untimed_payload (e : Entry) : e.untimed.payload = e.payload := rfl

@[simp] theorem Entry.untimed_retx (e : Entry) : e.untimed.retx = e.retx := rfl

theorem restartAge_untimed (q : Seq) (d : Nat) (l : List Entry) :
    (restartAge q d l).map Entry.untimed = l.map Entry.untimed :=
  map_updateNth _ _ _ _ _ fun _ => rfl

theorem mem_restartAge {q : Seq} {d : Nat} {l : List Entry} {x : Entry} (hx : x ∈ restartAge q d l) :
    x ∈ l ∨ ∃ e ∈ l, x = { e with age := 0 } := by
  rcases mem_updateNth hx with h | ⟨e, he, _, rfl⟩
  · exact .inl h
  · exact .inr ⟨e, he, rfl⟩

/-- All that acceptance can do: ages of outstanding frames, or the reset timer, start at 0. -/
theorem accepted_cases (k : Cmd) (q : Seq) (s : State) :
    (k = cmdData ∧ accepted k q s = { s with ofq := restartAge q (Config.freeEntry s.steps) s.ofq }) ∨
    (k = cmdResetReq ∧ s.link = .await ∧ accepted k q s = { s with resetAge := 0 }) ∨
    ((k ≠ cmdData ∧ ¬ (k = cmdResetReq ∧ s.link = .await)) ∧ accepted k q s = s) := by
  unfold accepted
  by_cases hk : k = cmdData
  · exact .inl ⟨hk, if_pos hk⟩
  · rw [if_neg hk]
    by_cases hr : k = cmdResetReq ∧ s.link = .await
    · exact .inr (.inl ⟨hr.1, hr.2, if_pos hr⟩)
    · exact .inr (.inr ⟨⟨hk, hr⟩, if_neg hr⟩)

/-- Acceptance writes the outstanding frames' ages and the reset timer, and nothing else. -/
theorem accepted_frame (k : Cmd) (q : Seq) (s : State) :
    ∃ l a, accepted k q s = { s with ofq := l, resetAge := a } ∧
      l.map Entry.untimed = s.ofq.map Entry.untimed ∧ (a = s.resetAge ∨ a = 0) ∧
      (∀ x ∈ l, x ∈ s.ofq ∨ ∃ e ∈ s.ofq, x = { e with age := 0 }) := by
  rcases accepted_cases k q s with ⟨_, h⟩ | ⟨_, _, h⟩ | ⟨_, h⟩ <;> rw [h]
  · exact ⟨_, _, rfl, restartAge_untimed _ _ _, .inl rfl, fun _ hx => mem_restartAge hx⟩
  · exact ⟨_, _, rfl, rfl, .inr rfl, fun _ hx => .inl hx⟩
  · exact ⟨_, _, rfl, rfl, .inl rfl, fun _ hx => .inl hx⟩

/-! ### The send primitive (R96) -/

/-- What a frame is held as after an attempt. -/
def heldAfter (f : Bytes) (k : Cmd) (q : Seq) : DriverReply → Option Held → Option Held
  | .ok, old => old
  | .busy, _ => some ⟨f, k, q⟩

/-- All that a send can do. -/
theorem send_frame (f : Bytes) (k : Cmd) (q : Seq) (r : DriverReply) (s : State) :
    ∃ l a, send f k q r s = { s with
        ofq := l, resetAge := a, trace := s.trace ++ [.wireTx f r], waitAge := 0, readySeen := false,
        hold := heldAfter f k q r s.hold } ∧
      l.map Entry.untimed = s.ofq.map Entry.untimed ∧ (a = s.resetAge ∨ a = 0) ∧
      (∀ x ∈ l, x ∈ s.ofq ∨ ∃ e ∈ s.ofq, x = { e with age := 0 }) := by
  cases r with
  | ok =>
    obtain ⟨l, a, h, hl, ha, hm⟩ := accepted_frame k q (attempt f .ok s)
    exact ⟨l, a, by simp only [send, h]; rfl, hl, ha, hm⟩
  | busy => exact ⟨s.ofq, s.resetAge, rfl, rfl, .inl rfl, fun _ hx => .inl hx⟩

/-- An encodable payload is sent. -/
theorem sendEncoded_of_le (c : Cmd) (q : Seq) {p : Bytes} (r : DriverReply) (s : State)
    (h : p.length ≤ maxPayload) :
    sendEncoded c q p r s = .next (send (headerByte c q :: p) c q r s) := by
  simp only [sendEncoded, encodeFrame_of_le c q h]

/-- If an encoded send answers a next state, the payload fits and that state is the send's. -/
theorem sendEncoded_next {c : Cmd} {q : Seq} {p : Bytes} {r : DriverReply} {s t : State}
    (h : sendEncoded c q p r s = .next t) :
    p.length ≤ maxPayload ∧ t = send (headerByte c q :: p) c q r s := by
  rcases encodeFrame_cases c q p with ⟨hp, he⟩ | ⟨_, he⟩ <;> simp only [sendEncoded, he] at h
  · cases h; exact ⟨hp, rfl⟩
  · cases h

/-! ### Completion (R112) -/

/-- Completion ends the handshake, and drops the hold exactly when it is a RESET_REQ's. -/
theorem resetComplete_cases (s : State) :
    (s.holdsResetReq = true ∧ resetComplete s = dropHold (establish s)) ∨
    (s.holdsResetReq = false ∧ resetComplete s = establish s) := by
  unfold resetComplete
  cases h : s.holdsResetReq
  · exact .inr ⟨rfl, by simp⟩
  · exact .inl ⟨rfl, by simp⟩

theorem holdsResetReq_iff (s : State) :
    s.holdsResetReq = true ↔ ∃ h, s.hold = some h ∧ h.kind = cmdResetReq := by
  unfold State.holdsResetReq
  cases s.hold <;> simp

/-! ### The TX step (R99) -/

/-- The oldest expired entry splits the outstanding frames. -/
theorem expiredEntry_some {s : State} {e : Entry} (h : s.expiredEntry = some e) :
    ∃ pre post, s.ofq = pre ++ e :: post ∧ (∀ x ∈ pre, x.age ≠ s.cfg.rtoTicks) ∧
      e.age = s.cfg.rtoTicks := by
  obtain ⟨he, pre, post, hl, hpre⟩ := List.find?_eq_some_iff_append.mp h
  refine ⟨pre, post, hl, fun x hx => ?_, by simpa [State.expired] using he⟩
  simpa [State.expired] using hpre x hx

theorem expiredEntry_none {s : State} (h : s.expiredEntry = none) :
    ∀ e ∈ s.ofq, e.age ≠ s.cfg.rtoTicks := by
  intro e he
  simpa [State.expired] using List.find?_eq_none.mp h e he

/-- What each action's being chosen says of the state. -/
def Chosen (s : State) : TxAction → Prop
  | .holdRetry h => s.hold = some h ∧ (s.readySeen = true ∨ s.waitAge = s.cfg.busyWaitTicks)
  | .sendResetAck => s.hold = none ∧ s.rstAckPending = true
  | .sendResetReq => s.hold = none ∧ s.rstAckPending = false ∧ s.link = .await ∧ s.reqPending = true
  | .resetTimeout => s.hold = none ∧ s.rstAckPending = false ∧ s.link = .await ∧ s.reqPending = false ∧
      s.resetAge = s.cfg.resetRtoTicks
  | .sendAck => s.hold = none ∧ s.rstAckPending = false ∧ s.link = .est ∧ s.ackPending = true
  | .expiry e => s.hold = none ∧ s.rstAckPending = false ∧ s.link = .est ∧ s.ackPending = false ∧
      s.expiredEntry = some e
  | .newData p rest => s.hold = none ∧ s.rstAckPending = false ∧ s.link = .est ∧ s.ackPending = false ∧
      s.expiredEntry = none ∧ s.txq = p :: rest ∧ s.ofq.length < s.cfg.w

/-- The arbitration chooses an action only when the rule's conditions hold. -/
theorem txAction_chosen {s : State} {a : TxAction} (h : txAction s = some a) : Chosen s a := by
  unfold txAction dataAction at h
  cases hh : s.hold with
  | some x =>
    simp only [hh] at h
    split at h
    · cases h; exact ⟨hh, by assumption⟩
    · cases h
  | none =>
    simp only [hh] at h
    by_cases h1 : s.rstAckPending = true
    · rw [if_pos h1] at h; cases h; exact ⟨hh, h1⟩
    rw [if_neg h1] at h
    have h1 : s.rstAckPending = false := by simpa using h1
    by_cases h2 : s.link = .await ∧ s.reqPending = true
    · rw [if_pos h2] at h; cases h; exact ⟨hh, h1, h2⟩
    rw [if_neg h2] at h
    by_cases h3 : s.link = .await ∧ s.resetAge = s.cfg.resetRtoTicks
    · rw [if_pos h3] at h; cases h
      exact ⟨hh, h1, h3.1, by simpa [h3.1] using h2, h3.2⟩
    rw [if_neg h3] at h
    by_cases h4 : s.link = .est ∧ s.ackPending = true
    · rw [if_pos h4] at h; cases h; exact ⟨hh, h1, h4⟩
    rw [if_neg h4] at h
    by_cases h5 : s.link = .est
    · have h4 : s.ackPending = false := by simpa [h5] using h4
      rw [if_pos h5] at h
      cases he : s.expiredEntry with
      | some e => simp only [he] at h; cases h; exact ⟨hh, h1, h5, h4, he⟩
      | none =>
        simp only [he] at h
        cases ht : s.txq with
        | nil => simp [ht] at h
        | cons p rest =>
          simp only [ht] at h
          split at h
          · cases h; exact ⟨hh, h1, h5, h4, he, ht, by assumption⟩
          · cases h
    · rw [if_neg h5] at h; cases h

/-- All that a TX step can do. -/
theorem txStep_next {r : DriverReply} {s t : State} (h : txStep r s = .next t) :
    (txAction s = none ∧ t = s) ∨ ∃ a, txAction s = some a ∧ Chosen s a ∧ takeAction a r s = .next t := by
  unfold txStep at h
  cases ha : txAction s with
  | none => simp only [ha] at h; cases h; exact .inl ⟨rfl, rfl⟩
  | some a => simp only [ha] at h; exact .inr ⟨a, rfl, txAction_chosen ha, h⟩

/-- All that a hold retry can do. -/
theorem retryHeld_frame (h : Held) (r : DriverReply) (s : State) :
    ∃ l a logs, retryHeld h r s = { s with
        ofq := l, resetAge := a, trace := s.trace ++ (logs ++ [.wireTx h.frame r]), waitAge := 0,
        readySeen := false, hold := if r = .ok then none else s.hold } ∧
      (logs = [] ∨ logs = [.log .busyWaitTimeout]) ∧
      l.map Entry.untimed = s.ofq.map Entry.untimed ∧ (a = s.resetAge ∨ a = 0) ∧
      (∀ x ∈ l, x ∈ s.ofq ∨ ∃ e ∈ s.ofq, x = { e with age := 0 }) := by
  cases r with
  | ok =>
    cases hr : s.readySeen with
    | true =>
      obtain ⟨l, a, hx, hl, ha, hm⟩ := accepted_frame h.kind h.seq { attempt h.frame .ok s with hold := none }
      exact ⟨l, a, [], by simp only [retryHeld, hr, if_true, hx]; rfl, .inl rfl, hl, ha, hm⟩
    | false =>
      obtain ⟨l, a, hx, hl, ha, hm⟩ := accepted_frame h.kind h.seq
        { attempt h.frame .ok (emit (.log .busyWaitTimeout) s) with hold := none }
      refine ⟨l, a, [.log .busyWaitTimeout], ?_, .inr rfl, hl, ha, hm⟩
      simp only [retryHeld, hr, Bool.false_eq_true, if_false, hx]
      simp [attempt, emit]
  | busy =>
    cases hr : s.readySeen with
    | true => exact ⟨s.ofq, s.resetAge, [], by simp [retryHeld, hr, attempt, emit], .inl rfl, rfl, .inl rfl,
        fun _ hx => .inl hx⟩
    | false => exact ⟨s.ofq, s.resetAge, [.log .busyWaitTimeout], by simp [retryHeld, hr, attempt, emit],
        .inr rfl, rfl, .inl rfl, fun _ hx => .inl hx⟩

/-- All that reset timer expiry can do. -/
theorem resetTimeout_cases (s : State) :
    (s.resetRetry < s.cfg.resetMaxRetry ∧
      resetTimeout s = { s with resetRetry := s.resetRetry + 1, reqPending := true }) ∨
    (s.cfg.resetMaxRetry ≤ s.resetRetry ∧
      resetTimeout s = { s with
        link := .disc, resetAge := 0, resetRetry := 0,
        trace := s.trace ++ [.log .resetCeiling, .connLost] }) := by
  unfold resetTimeout
  by_cases h : s.resetRetry < s.cfg.resetMaxRetry
  · exact .inl ⟨h, if_pos h⟩
  · exact .inr ⟨Nat.le_of_not_lt h, by rw [if_neg h]; simp [emit]⟩

/-- All that a retransmission timer's expiry can do. -/
theorem retxExpiry_next {e : Entry} {r : DriverReply} {s t : State} (h : retxExpiry e r s = .next t) :
    (e.retx < s.cfg.maxRetx ∧ e.payload.length ≤ maxPayload ∧
      t = send (headerByte cmdData e.seq :: e.payload) cmdData e.seq r (countRetx s)) ∨
    (s.cfg.maxRetx ≤ e.retx ∧ t = retryCeiling s) := by
  unfold retxExpiry at h
  by_cases hx : e.retx < s.cfg.maxRetx
  · rw [if_pos hx] at h
    exact .inl ⟨hx, sendEncoded_next h⟩
  · rw [if_neg hx] at h; cases h
    exact .inr ⟨Nat.le_of_not_lt hx, rfl⟩

end Sys2Proof.Machine
end

