-- ==== Sys2Proof/Laws/PerInstr.lean ====
section
/-!
SUPPORT. What holds of every frame as syntax: its header byte carries its row's command and matches that row of the opcode
map (R61).
-/

namespace Sys2Proof.Laws.OpcodeRow

/-- The header byte the encoder writes for `i` matches the opcode map's row of `i`'s command, and reading it back gives
`i`'s command. -/
def Statement (i : Instr) : Prop :=
  (∃ row ∈ opcodeMap, row.cmd = i.cmd ∧ row.hits (headerByte i.cmd i.seq) = true) ∧
    headerCmd (headerByte i.cmd i.seq) = i.cmd

/-- One row covers every sequence number. -/
theorem of_row {i : Instr} (row : OpcodeRow) (hm : row ∈ opcodeMap) (hc : row.cmd = i.cmd)
    (hh : ∀ q : Seq, row.hits (headerByte row.cmd q) = true) : Statement i :=
  ⟨⟨row, hm, hc, hc ▸ hh i.seq⟩, headerCmd_headerByte _ _⟩

theorem data (q : Seq) (p : Bytes) : Statement (.data q p) :=
  of_row ⟨0, 7, 0⟩ (by decide) rfl (by decide)

theorem ack (q : Seq) (p : Bytes) : Statement (.ack q p) :=
  of_row ⟨1, 7, 1⟩ (by decide) rfl (by decide)

theorem resetReq (q : Seq) (p : Bytes) : Statement (.resetReq q p) :=
  of_row ⟨2, 7, 2⟩ (by decide) rfl (by decide)

theorem resetAck (q : Seq) (p : Bytes) : Statement (.resetAck q p) :=
  of_row ⟨3, 7, 3⟩ (by decide) rfl (by decide)

theorem reserved4 (q : Seq) (p : Bytes) : Statement (.reserved4 q p) :=
  of_row ⟨4, 7, 4⟩ (by decide) rfl (by decide)

theorem reserved5 (q : Seq) (p : Bytes) : Statement (.reserved5 q p) :=
  of_row ⟨5, 7, 5⟩ (by decide) rfl (by decide)

theorem reserved6 (q : Seq) (p : Bytes) : Statement (.reserved6 q p) :=
  of_row ⟨6, 7, 6⟩ (by decide) rfl (by decide)

theorem reserved7 (q : Seq) (p : Bytes) : Statement (.reserved7 q p) :=
  of_row ⟨7, 7, 7⟩ (by decide) rfl (by decide)

end Sys2Proof.Laws.OpcodeRow
end

