-- ==== Sys2Proof/Laws/Step.lean ====
section
/-!
SUPPORT. What a step of each agent can do, said once, for every proof about `step` to start from.
-/

namespace Sys2Proof.Machine

/-- All that SUBMIT can do (R94). -/
theorem submit_cases (p : Bytes) (s : State) :
    (maxPayload < p.length ∧
      submit p s = { emit .rejectOversizeFrame s with submitReply := some .oversizeFrame }) ∨
    (p.length ≤ maxPayload ∧ s.txq.length = s.cfg.txqDepth ∧
      submit p s = { s with waiting := s.waiting ++ [p] }) ∨
    (p.length ≤ maxPayload ∧ s.txq.length ≠ s.cfg.txqDepth ∧ submit p s = enqueuePayload p s) := by
  unfold submit State.txqFull
  by_cases hp : maxPayload < p.length
  · exact .inl ⟨hp, if_pos hp⟩
  · rw [if_neg hp]
    by_cases hf : s.txq.length = s.cfg.txqDepth
    · exact .inr (.inl ⟨Nat.le_of_not_lt hp, hf, by simp [hf]⟩)
    · exact .inr (.inr ⟨Nat.le_of_not_lt hp, hf, by simp [hf]⟩)

/-- All that a blocked caller's SUBMIT step can do (log 4). -/
theorem resumeSubmit_cases (i : Nat) (s : State) :
    resumeSubmit i s = s ∨
    ∃ p, s.waiting[i]? = some p ∧ s.txq.length ≠ s.cfg.txqDepth ∧
      resumeSubmit i s = { enqueuePayload p s with waiting := s.waiting.eraseIdx i } := by
  unfold resumeSubmit State.txqFull
  cases h : s.waiting[i]? with
  | none => exact .inl rfl
  | some p =>
    by_cases hf : s.txq.length = s.cfg.txqDepth
    · exact .inl (by simp [hf])
    · exact .inr ⟨p, rfl, hf, by simp [hf]⟩

/-- All that the RX bridge can do (R82). -/
theorem rxFrame_cases (b : Bytes) (s : State) :
    ((mtu < b.length ∨ s.rxq.length = s.cfg.rxqDepth) ∧ rxFrame b s = s) ∨
    (b.length ≤ mtu ∧ s.rxq.length ≠ s.cfg.rxqDepth ∧ rxFrame b s = { s with rxq := s.rxq ++ [b] }) := by
  unfold rxFrame State.rxqFull
  by_cases hb : mtu < b.length
  · exact .inl ⟨.inl hb, if_pos hb⟩
  · rw [if_neg hb]
    by_cases hf : s.rxq.length = s.cfg.rxqDepth
    · exact .inl ⟨.inr hf, by simp [hf]⟩
    · exact .inr ⟨Nat.le_of_not_lt hb, hf, by simp [hf]⟩

/-- All that the doorbell can do (R95). -/
theorem txReady_cases (s : State) :
    (s.hold = none ∧ txReady s = s) ∨ (s.hold ≠ none ∧ txReady s = { s with readySeen := true }) := by
  unfold txReady
  cases h : s.hold
  · exact .inl ⟨rfl, by simp⟩
  · exact .inr ⟨by simp, by simp⟩

/-- All that a DATA frame can do (R85). -/
theorem receiveData_cases (q : Seq) (p : Bytes) (s : State) :
    (s.link ≠ .est ∧ receiveData q p s = s) ∨
    (s.link = .est ∧ sdiff5 q s.rxCursor = 0 ∧ receiveData q p s = dataInOrder q p s) ∨
    (s.link = .est ∧ sdiff5 q s.rxCursor < 0 ∧ receiveData q p s = dataDuplicate s) ∨
    (s.link = .est ∧ 0 < sdiff5 q s.rxCursor ∧ receiveData q p s = s) := by
  unfold receiveData
  by_cases hl : s.link = .est
  · rw [if_neg (by simp [hl])]
    by_cases h0 : sdiff5 q s.rxCursor = 0
    · exact .inr (.inl ⟨hl, h0, if_pos h0⟩)
    · rw [if_neg h0]
      by_cases hn : sdiff5 q s.rxCursor < 0
      · exact .inr (.inr (.inl ⟨hl, hn, if_pos hn⟩))
      · exact .inr (.inr (.inr ⟨hl, by omega, if_neg hn⟩))
  · exact .inl ⟨hl, if_pos hl⟩

/-- Distance 0 is equality. -/
theorem sdiff5_eq_zero {a b : Seq} (h : sdiff5 a b = 0) : a = b := by
  revert a b; decide

/-- The state every frame's meaning answers. -/
def received : Instr → State → State
  | .data q p, s => receiveData q p s
  | .ack q _, s => receiveAck q s
  | .resetReq _ _, s => peerReset s
  | .resetAck _ _, s => receiveResetAck s
  | .reserved4 _ _, s => dropUnknown s
  | .reserved5 _ _, s => dropUnknown s
  | .reserved6 _ _, s => dropUnknown s
  | .reserved7 _ _, s => dropUnknown s

/-- Every frame's meaning answers a next state, in every state. -/
theorem exec_eq (i : Instr) (s : State) : exec i s = .next (received i s) := by
  cases i <;> rfl

/-- All that a frame can do, by rule. -/
theorem received_cases (i : Instr) (s : State) :
    received i s = s ∨
    (∃ p, i = .data s.rxCursor p ∧ s.link = .est ∧ received i s = dataInOrder s.rxCursor p s) ∨
    (∃ q p, i = .data q p ∧ s.link = .est ∧ received i s = dataDuplicate s) ∨
    (∃ a p, i = .ack a p ∧ s.link = .est ∧ received i s = retire a s) ∨
    (∃ q p, i = .resetReq q p ∧ received i s = peerReset s) ∨
    (∃ q p, i = .resetAck q p ∧ s.link = .await ∧ received i s = resetComplete s) ∨
    received i s = emit (.log .unknownCmd) s := by
  cases i with
  | data q p =>
    rcases receiveData_cases q p s with ⟨_, h⟩ | ⟨hl, h0, h⟩ | ⟨hl, _, h⟩ | ⟨_, _, h⟩
    · exact .inl h
    · obtain rfl := sdiff5_eq_zero h0
      exact .inr (.inl ⟨p, rfl, hl, h⟩)
    · exact .inr (.inr (.inl ⟨q, p, rfl, hl, h⟩))
    · exact .inl h
  | ack q p =>
    by_cases hl : s.link = .est
    · exact .inr (.inr (.inr (.inl ⟨q, p, rfl, hl, by simp [received, receiveAck, hl]⟩)))
    · exact .inl (by simp [received, receiveAck, hl])
  | resetReq q p => exact .inr (.inr (.inr (.inr (.inl ⟨q, p, rfl, rfl⟩))))
  | resetAck q p =>
    by_cases hl : s.link = .await
    · exact .inr (.inr (.inr (.inr (.inr (.inl ⟨q, p, rfl, hl, by simp [received, receiveResetAck, hl]⟩)))))
    · exact .inl (by simp [received, receiveResetAck, hl])
  | reserved4 => exact .inr (.inr (.inr (.inr (.inr (.inr rfl)))))
  | reserved5 => exact .inr (.inr (.inr (.inr (.inr (.inr rfl)))))
  | reserved6 => exact .inr (.inr (.inr (.inr (.inr (.inr rfl)))))
  | reserved7 => exact .inr (.inr (.inr (.inr (.inr (.inr rfl)))))

/-- All that an RX step can do (R83). -/
theorem rxStep_next {s t : State} (h : rxStep s = .next t) :
    (s.rxq = [] ∧ t = s) ∨
    (∃ rest, s.rxq = [] :: rest ∧ t = dropMalformed { s with rxq := rest }) ∨
    ∃ b rest i, s.rxq = b :: rest ∧ decode b = .ok i ∧ t = received i { s with rxq := rest } := by
  unfold rxStep at h
  cases hq : s.rxq with
  | nil => simp only [hq] at h; cases h; exact .inl ⟨rfl, rfl⟩
  | cons b rest =>
    simp only [hq] at h
    cases b with
    | nil => simp only [decode_nil] at h; cases h; exact .inr (.inl ⟨rest, rfl, rfl⟩)
    | cons x xs =>
      simp only [decode_cons, exec_eq] at h; cases h
      exact .inr (.inr ⟨_, rest, _, rfl, decode_cons x xs, rfl⟩)

/-- A step that answers a next state has a legal configuration and takes the next turn. -/
theorem step_next {s t : State} (h : step s = .next t) :
    s.cfg.legal = true ∧ takeTurn (nextTurn s) (spendTurn s) = .next t := by
  unfold step stepBody at h
  cases hl : s.cfg.legal
  · simp [hl] at h
  · exact ⟨rfl, by simpa [hl] using h⟩

/-- A step of a legal configuration takes the next turn. -/
theorem step_of_legal {s : State} (h : s.cfg.legal = true) :
    step s = takeTurn (nextTurn s) (spendTurn s) := by
  simp [step, stepBody, h]

end Sys2Proof.Machine
end

