-- ==== Sys2Proof/Laws/StepCases.lean ====
section
/-!
SUPPORT. The inversion of `step`: every way a step can answer a next state, with the rule's conditions and the state it
leaves. A proof about all steps starts from `step_outcome` and unfolds nothing.
-/

namespace Sys2Proof.Machine

/-- `l` is `m` with some ages set to 0. -/
def AgesOnly (l m : List Entry) : Prop :=
  l.map Entry.untimed = m.map Entry.untimed ∧ ∀ x ∈ l, x ∈ m ∨ ∃ e ∈ m, x = { e with age := 0 }

theorem AgesOnly.refl (l : List Entry) : AgesOnly l l := ⟨rfl, fun _ hx => .inl hx⟩

theorem AgesOnly.exists_of_mem {l m : List Entry} (h : AgesOnly l m) {e : Entry} (he : e ∈ m) :
    ∃ x ∈ l, x.seq = e.seq ∧ x.payload = e.payload ∧ x.retx = e.retx := by
  have hu : e.untimed ∈ l.map Entry.untimed := h.1 ▸ List.mem_map_of_mem he
  obtain ⟨x, hx, hxe⟩ := List.mem_map.1 hu
  have hf := Entry.mk.inj hxe
  exact ⟨x, hx, hf.1, hf.2.1, hf.2.2.1⟩

theorem AgesOnly.length_eq {l m : List Entry} (h : AgesOnly l m) : l.length = m.length := by
  simpa using congrArg List.length h.1

theorem AgesOnly.map_seq {l m : List Entry} (h : AgesOnly l m) :
    l.map (fun e => e.seq) = m.map (fun e => e.seq) := by
  simpa [Function.comp_def] using congrArg (List.map fun e => Entry.seq e) h.1

/-- What a DATA attempt makes of the ages: acceptance restarts one entry with the number, if there is one; otherwise
every entry stays as it was. -/
def RestartedOn (r : DriverReply) (q : Seq) (l m : List Entry) : Prop :=
  (r = .ok → (∃ e ∈ m, e.seq = q) → OneRestarted q l m) ∧ ((r = .busy ∨ ¬ ∃ e ∈ m, e.seq = q) → l = m)

/-- The state after one attempt at the driver with a fresh frame (R96), but for what acceptance restarts. -/
def attempted (f : Bytes) (k : Cmd) (q : Seq) (r : DriverReply) (s : State) : State :=
  { s with
    trace := s.trace ++ [.wireTx f r], waitAge := 0, readySeen := false, hold := heldAfter f k q r s.hold }

@[simp] theorem attempted_cfg (f : Bytes) (k : Cmd) (q : Seq) (r : DriverReply) (s : State) :
    (attempted f k q r s).cfg = s.cfg := rfl
@[simp] theorem attempted_link (f : Bytes) (k : Cmd) (q : Seq) (r : DriverReply) (s : State) :
    (attempted f k q r s).link = s.link := rfl
@[simp] theorem attempted_reqPending (f : Bytes) (k : Cmd) (q : Seq) (r : DriverReply) (s : State) :
    (attempted f k q r s).reqPending = s.reqPending := rfl
@[simp] theorem attempted_resetAge (f : Bytes) (k : Cmd) (q : Seq) (r : DriverReply) (s : State) :
    (attempted f k q r s).resetAge = s.resetAge := rfl
@[simp] theorem attempted_resetRetry (f : Bytes) (k : Cmd) (q : Seq) (r : DriverReply) (s : State) :
    (attempted f k q r s).resetRetry = s.resetRetry := rfl
@[simp] theorem attempted_rstAckPending (f : Bytes) (k : Cmd) (q : Seq) (r : DriverReply) (s : State) :
    (attempted f k q r s).rstAckPending = s.rstAckPending := rfl
@[simp] theorem attempted_rxq (f : Bytes) (k : Cmd) (q : Seq) (r : DriverReply) (s : State) :
    (attempted f k q r s).rxq = s.rxq := rfl
@[simp] theorem attempted_rxCursor (f : Bytes) (k : Cmd) (q : Seq) (r : DriverReply) (s : State) :
    (attempted f k q r s).rxCursor = s.rxCursor := rfl
@[simp] theorem attempted_lastDeliveredSeq (f : Bytes) (k : Cmd) (q : Seq) (r : DriverReply) (s : State) :
    (attempted f k q r s).lastDeliveredSeq = s.lastDeliveredSeq := rfl
@[simp] theorem attempted_ackPending (f : Bytes) (k : Cmd) (q : Seq) (r : DriverReply) (s : State) :
    (attempted f k q r s).ackPending = s.ackPending := rfl
@[simp] theorem attempted_txq (f : Bytes) (k : Cmd) (q : Seq) (r : DriverReply) (s : State) :
    (attempted f k q r s).txq = s.txq := rfl
@[simp] theorem attempted_ofq (f : Bytes) (k : Cmd) (q : Seq) (r : DriverReply) (s : State) :
    (attempted f k q r s).ofq = s.ofq := rfl
@[simp] theorem attempted_nextTxSeq (f : Bytes) (k : Cmd) (q : Seq) (r : DriverReply) (s : State) :
    (attempted f k q r s).nextTxSeq = s.nextTxSeq := rfl
@[simp] theorem attempted_hold (f : Bytes) (k : Cmd) (q : Seq) (r : DriverReply) (s : State) :
    (attempted f k q r s).hold = heldAfter f k q r s.hold := rfl
@[simp] theorem attempted_waitAge (f : Bytes) (k : Cmd) (q : Seq) (r : DriverReply) (s : State) :
    (attempted f k q r s).waitAge = 0 := rfl
@[simp] theorem attempted_readySeen (f : Bytes) (k : Cmd) (q : Seq) (r : DriverReply) (s : State) :
    (attempted f k q r s).readySeen = false := rfl
@[simp] theorem attempted_trace (f : Bytes) (k : Cmd) (q : Seq) (r : DriverReply) (s : State) :
    (attempted f k q r s).trace = s.trace ++ [.wireTx f r] := rfl
@[simp] theorem attempted_submitReply (f : Bytes) (k : Cmd) (q : Seq) (r : DriverReply) (s : State) :
    (attempted f k q r s).submitReply = s.submitReply := rfl
@[simp] theorem attempted_waiting (f : Bytes) (k : Cmd) (q : Seq) (r : DriverReply) (s : State) :
    (attempted f k q r s).waiting = s.waiting := rfl
@[simp] theorem attempted_script (f : Bytes) (k : Cmd) (q : Seq) (r : DriverReply) (s : State) :
    (attempted f k q r s).script = s.script := rfl
@[simp] theorem attempted_steps (f : Bytes) (k : Cmd) (q : Seq) (r : DriverReply) (s : State) :
    (attempted f k q r s).steps = s.steps := rfl

theorem send_data_eq (f : Bytes) (q : Seq) (r : DriverReply) (s : State) :
    ∃ l, AgesOnly l s.ofq ∧ RestartedOn r q l s.ofq ∧
      send f cmdData q r s = { attempted f cmdData q r s with ofq := l } := by
  cases r
  · exact ⟨_, ⟨restartAge_untimed _ _ _, fun _ hx => mem_restartAge hx⟩,
      ⟨fun _ h => restartAge_one _ h, fun h => restartAge_none _ (h.resolve_left (by simp))⟩,
      by simp only [send, accepted, if_true]; rfl⟩
  · exact ⟨s.ofq, .refl _, ⟨nofun, fun _ => rfl⟩, rfl⟩

theorem send_control_eq (f : Bytes) (k : Cmd) (q : Seq) (r : DriverReply) (s : State)
    (hd : k ≠ cmdData) (hr : k = cmdResetReq → s.resetAge = 0) :
    send f k q r s = attempted f k q r s := by
  cases r with
  | busy => rfl
  | ok =>
    rcases accepted_cases k q (attempt f .ok s) with ⟨h, _⟩ | ⟨h, _, e⟩ | ⟨_, e⟩
    · exact absurd h hd
    · rw [send, e]
      simp [attempted, heldAfter, attempt, emit, hr h]
    · simp only [send, e]; rfl

/-- R114 answers a next state whatever the driver says. -/
theorem sendResetAck_eq (r : DriverReply) (s : State) :
    sendResetAck r s = .next
      (attempted [headerByte cmdResetAck 0] cmdResetAck 0 r { s with rstAckPending := false }) := by
  rw [sendResetAck, sendEncoded_of_le _ _ _ _ (Nat.zero_le _),
    send_control_eq _ _ _ _ _ (by decide) fun h => absurd h (by decide)]

/-- R113 answers a next state whatever the driver says. -/
theorem sendResetReq_eq (r : DriverReply) (s : State) :
    sendResetReq r s = .next
      (attempted [headerByte cmdResetReq 0] cmdResetReq 0 r
        { s with reqPending := false, resetAge := 0 }) := by
  rw [sendResetReq, sendEncoded_of_le _ _ _ _ (Nat.zero_le _),
    send_control_eq _ _ _ _ _ (by decide) fun _ => rfl]

/-- R100 answers a next state whatever the driver says. -/
theorem sendAck_eq (r : DriverReply) (s : State) :
    sendAck r s = .next
      (attempted [headerByte cmdAck s.lastDeliveredSeq] cmdAck s.lastDeliveredSeq r
        { s with ackPending := false }) := by
  rw [sendAck, sendEncoded_of_le _ _ _ _ (Nat.zero_le _),
    send_control_eq _ _ _ _ _ (by decide) fun h => absurd h (by decide)]

/-- Every way a TX step can answer a next state (R99). -/
inductive TxOutcome (r : DriverReply) (s : State) : State → Prop
  /-- Not enabled. -/
  | idle (h : txAction s = none) : TxOutcome r s s
  /-- R98. -/
  | retry (h : Held) (l : List Entry) (a : Nat) (logs : List Event)
      (hact : txAction s = some (.holdRetry h)) (hhold : s.hold = some h)
      (hlogs : logs = [] ∨ logs = [.log .busyWaitTimeout])
      (hages : AgesOnly l s.ofq) (ha : a = s.resetAge ∨ a = 0) :
      TxOutcome r s { s with
        ofq := l, resetAge := a, trace := s.trace ++ (logs ++ [.wireTx h.frame r]), waitAge := 0,
        readySeen := false, hold := if r = .ok then none else s.hold }
  /-- R114. -/
  | resetAck (hact : txAction s = some .sendResetAck) (hhold : s.hold = none) (hp : s.rstAckPending = true) :
      TxOutcome r s
        (attempted [headerByte cmdResetAck 0] cmdResetAck 0 r { s with rstAckPending := false })
  /-- R113. -/
  | resetReq (hact : txAction s = some .sendResetReq) (hhold : s.hold = none)
      (hr : s.rstAckPending = false) (hl : s.link = .await) (hp : s.reqPending = true) :
      TxOutcome r s
        (attempted [headerByte cmdResetReq 0] cmdResetReq 0 r { s with reqPending := false, resetAge := 0 })
  /-- R115 with a retry left. -/
  | resetRetry (hact : txAction s = some .resetTimeout) (hhold : s.hold = none) (hl : s.link = .await)
      (hp : s.reqPending = false) (hr : s.resetRetry < s.cfg.resetMaxRetry) :
      TxOutcome r s { s with resetRetry := s.resetRetry + 1, reqPending := true }
  /-- R115 with none left. -/
  | giveUp (hact : txAction s = some .resetTimeout) (hhold : s.hold = none) (ha : s.rstAckPending = false)
      (hl : s.link = .await) (hp : s.reqPending = false) (hr : s.cfg.resetMaxRetry ≤ s.resetRetry) :
      TxOutcome r s { s with
        link := .disc, resetAge := 0, resetRetry := 0,
        trace := s.trace ++ [.log .resetCeiling, .connLost] }
  /-- R100. -/
  | ack (hact : txAction s = some .sendAck) (hhold : s.hold = none) (hl : s.link = .est)
      (hp : s.ackPending = true) :
      TxOutcome r s
        (attempted [headerByte cmdAck s.lastDeliveredSeq] cmdAck s.lastDeliveredSeq r
          { s with ackPending := false })
  /-- R102. -/
  | retransmit (pre post : List Entry) (e : Entry) (l : List Entry)
      (hact : txAction s = some (.expiry e)) (hhold : s.hold = none) (hl : s.link = .est)
      (hofq : s.ofq = pre ++ e :: post) (hpre : ∀ x ∈ pre, x.age ≠ s.cfg.rtoTicks) (hage : e.age = s.cfg.rtoTicks)
      (hx : e.retx < s.cfg.maxRetx) (hp : e.payload.length ≤ maxPayload)
      (hages : AgesOnly l (pre ++ { e with retx := e.retx + 1 } :: post))
      (hone : RestartedOn r e.seq l (pre ++ { e with retx := e.retx + 1 } :: post)) :
      TxOutcome r s
        { attempted (headerByte cmdData e.seq :: e.payload) cmdData e.seq r s with ofq := l }
  /-- R103. -/
  | ceiling (e : Entry) (hact : txAction s = some (.expiry e)) (hhold : s.hold = none)
      (hl : s.link = .est) (hx : s.cfg.maxRetx ≤ e.retx) :
      TxOutcome r s (localReset (emit (.log .retxCeiling) s))
  /-- R104. -/
  | newData (p : Bytes) (rest : List Bytes) (l : List Entry)
      (hact : txAction s = some (.newData p rest)) (hhold : s.hold = none)
      (hr : s.rstAckPending = false) (hl : s.link = .est) (ha : s.ackPending = false)
      (he : ∀ e ∈ s.ofq, e.age ≠ s.cfg.rtoTicks) (htxq : s.txq = p :: rest)
      (hw : s.ofq.length < s.cfg.w) (hp : p.length ≤ maxPayload)
      (hages : AgesOnly l (s.ofq ++ [⟨s.nextTxSeq, p, 0, 0⟩]))
      (hone : RestartedOn r s.nextTxSeq l (s.ofq ++ [⟨s.nextTxSeq, p, 0, 0⟩])) :
      TxOutcome r s
        { attempted (headerByte cmdData s.nextTxSeq :: p) cmdData s.nextTxSeq r s with
          txq := rest, ofq := l, nextTxSeq := s.nextTxSeq + 1 }

/-- All that a TX step can do. -/
theorem txStep_outcome {r : DriverReply} {s t : State} (h : txStep r s = .next t) : TxOutcome r s t := by
  rcases txStep_next h with ⟨h, rfl⟩ | ⟨a, hact, hc, h⟩
  · exact .idle h
  cases a with
  | holdRetry x =>
    obtain ⟨l, a, logs, e, hl, h1, h2, h3⟩ := retryHeld_frame x r s
    simp only [takeAction, e] at h; cases h
    exact .retry x l a logs hact hc.1 hl ⟨h1, h3⟩ h2
  | sendResetAck =>
    simp only [takeAction, sendResetAck_eq] at h; cases h
    exact .resetAck hact hc.1 hc.2
  | sendResetReq =>
    simp only [takeAction, sendResetReq_eq] at h; cases h
    exact .resetReq hact hc.1 hc.2.1 hc.2.2.1 hc.2.2.2
  | resetTimeout =>
    obtain ⟨c1, c2, c3, c4, _⟩ := hc
    simp only [takeAction] at h; cases h
    rcases resetTimeout_cases s with ⟨h, e⟩ | ⟨h, e⟩ <;> rw [e]
    · exact .resetRetry hact c1 c3 c4 h
    · exact .giveUp hact c1 c2 c3 c4 h
  | sendAck =>
    simp only [takeAction, sendAck_eq] at h; cases h
    exact .ack hact hc.1 hc.2.2.1 hc.2.2.2
  | expiry e =>
    obtain ⟨c1, _, c3, _, c5⟩ := hc
    rcases retxExpiry_next (show retxExpiry e r s = .next t from h) with ⟨h1, h2, rfl⟩ | ⟨h1, rfl⟩
    · obtain ⟨pre, post, ho, hp, he⟩ := expiredEntry_some c5
      have hu : (countRetx s).ofq = pre ++ { e with retx := e.retx + 1 } :: post := by
        rw [countRetx_ofq, ho]
        exact updateNth_zero _ _ _ _ _ (fun x hx => by simpa [State.expired] using hp x hx)
          (by simp [State.expired, he])
      obtain ⟨l, hl, ho1, e2⟩ := send_data_eq (headerByte cmdData e.seq :: e.payload) e.seq r (countRetx s)
      rw [e2]
      exact .retransmit pre post e l hact c1 c3 ho hp he h1 h2 (hu ▸ hl) (hu ▸ ho1)
    · exact .ceiling e hact c1 c3 h1
  | newData p rest =>
    obtain ⟨c1, c2, c3, c4, c5, c6, c7⟩ := hc
    simp only [takeAction, sendNewData] at h
    obtain ⟨hp, rfl⟩ := sendEncoded_next h
    obtain ⟨l, hl, ho1, e2⟩ := send_data_eq (headerByte cmdData s.nextTxSeq :: p) s.nextTxSeq r
      (recordNewData p rest s)
    rw [e2]
    exact .newData p rest l hact c1 c2 c3 c4 (expiredEntry_none c5) c6 c7 hp hl ho1

/-- The state an RX step hands to the popped frame's rule. -/
def popped (s : State) (rest : List Bytes) : State := { spendTurn s with rxq := rest }

@[simp] theorem popped_cfg (s : State) (rest : List Bytes) : (popped s rest).cfg = s.cfg := rfl
@[simp] theorem popped_link (s : State) (rest : List Bytes) : (popped s rest).link = s.link := rfl
@[simp] theorem popped_reqPending (s : State) (rest : List Bytes) :
    (popped s rest).reqPending = s.reqPending := rfl
@[simp] theorem popped_resetAge (s : State) (rest : List Bytes) : (popped s rest).resetAge = s.resetAge := rfl
@[simp] theorem popped_resetRetry (s : State) (rest : List Bytes) :
    (popped s rest).resetRetry = s.resetRetry := rfl
@[simp] theorem popped_rstAckPending (s : State) (rest : List Bytes) :
    (popped s rest).rstAckPending = s.rstAckPending := rfl
@[simp] theorem popped_rxq (s : State) (rest : List Bytes) : (popped s rest).rxq = rest := rfl
@[simp] theorem popped_rxCursor (s : State) (rest : List Bytes) : (popped s rest).rxCursor = s.rxCursor := rfl
@[simp] theorem popped_lastDeliveredSeq (s : State) (rest : List Bytes) :
    (popped s rest).lastDeliveredSeq = s.lastDeliveredSeq := rfl
@[simp] theorem popped_ackPending (s : State) (rest : List Bytes) :
    (popped s rest).ackPending = s.ackPending := rfl
@[simp] theorem popped_txq (s : State) (rest : List Bytes) : (popped s rest).txq = s.txq := rfl
@[simp] theorem popped_ofq (s : State) (rest : List Bytes) : (popped s rest).ofq = s.ofq := rfl
@[simp] theorem popped_nextTxSeq (s : State) (rest : List Bytes) :
    (popped s rest).nextTxSeq = s.nextTxSeq := rfl
@[simp] theorem popped_hold (s : State) (rest : List Bytes) : (popped s rest).hold = s.hold := rfl
@[simp] theorem popped_waitAge (s : State) (rest : List Bytes) : (popped s rest).waitAge = s.waitAge := rfl
@[simp] theorem popped_readySeen (s : State) (rest : List Bytes) :
    (popped s rest).readySeen = s.readySeen := rfl
@[simp] theorem popped_trace (s : State) (rest : List Bytes) : (popped s rest).trace = s.trace := rfl
@[simp] theorem popped_submitReply (s : State) (rest : List Bytes) :
    (popped s rest).submitReply = s.submitReply := rfl
@[simp] theorem popped_waiting (s : State) (rest : List Bytes) : (popped s rest).waiting = s.waiting := rfl
@[simp] theorem popped_script (s : State) (rest : List Bytes) : (popped s rest).script = s.script.tail := rfl
@[simp] theorem popped_steps (s : State) (rest : List Bytes) : (popped s rest).steps = s.steps + 1 := rfl

/-- Every way a step can answer a next state (R45). -/
inductive StepOutcome (s : State) : State → Prop
  /-- R94, refused. -/
  | submitRefused (p : Bytes) (ht : nextTurn s = .submit p) (hp : maxPayload < p.length) :
      StepOutcome s { emit .rejectOversizeFrame (spendTurn s) with submitReply := some .oversizeFrame }
  /-- R94, the caller blocks (log 4). -/
  | submitBlocked (p : Bytes) (ht : nextTurn s = .submit p) (hp : p.length ≤ maxPayload)
      (hf : s.txq.length = s.cfg.txqDepth) :
      StepOutcome s { spendTurn s with waiting := s.waiting ++ [p] }
  /-- R94, queued. -/
  | submitQueued (p : Bytes) (ht : nextTurn s = .submit p) (hp : p.length ≤ maxPayload)
      (hf : s.txq.length ≠ s.cfg.txqDepth) : StepOutcome s (enqueuePayload p (spendTurn s))
  /-- No such caller, or TXQ still full (log 4). -/
  | resumeIdle (i : Nat) (ht : nextTurn s = .resume i) : StepOutcome s (spendTurn s)
  /-- R94, a blocked caller's payload queued (log 4). -/
  | resumeQueued (i : Nat) (p : Bytes) (ht : nextTurn s = .resume i) (hw : s.waiting[i]? = some p)
      (hf : s.txq.length ≠ s.cfg.txqDepth) :
      StepOutcome s { enqueuePayload p (spendTurn s) with waiting := s.waiting.eraseIdx i }
  /-- R82, dropped. -/
  | frameDropped (b : Bytes) (ht : nextTurn s = .rxFrame b) : StepOutcome s (spendTurn s)
  /-- R82, queued. -/
  | frameQueued (b : Bytes) (ht : nextTurn s = .rxFrame b) (hb : b.length ≤ mtu)
      (hf : s.rxq.length ≠ s.cfg.rxqDepth) : StepOutcome s { spendTurn s with rxq := s.rxq ++ [b] }
  /-- R95, nothing held. -/
  | readyIgnored (ht : nextTurn s = .txReady) : StepOutcome s (spendTurn s)
  /-- R95. -/
  | readyLatched (ht : nextTurn s = .txReady) (hh : s.hold ≠ none) :
      StepOutcome s { spendTurn s with readySeen := true }
  /-- R125. -/
  | ticked (ht : nextTurn s = .tick) : StepOutcome s (tick (spendTurn s))
  /-- R109. -/
  | initialized (ht : nextTurn s = .init) : StepOutcome s (initSession (spendTurn s))
  /-- The RX step is not enabled. -/
  | rxIdle (ht : nextTurn s = .rxs) (hq : s.rxq = []) : StepOutcome s (spendTurn s)
  /-- R84. -/
  | rxMalformed (rest : List Bytes) (ht : nextTurn s = .rxs) (hq : s.rxq = [] :: rest) :
      StepOutcome s (emit (.log .malformedFrame) (popped s rest))
  /-- R85, R88, R89, R91: a frame that has no effect. -/
  | rxDropped (b : Bytes) (rest : List Bytes) (i : Instr) (ht : nextTurn s = .rxs) (hq : s.rxq = b :: rest)
      (hd : decode b = .ok i) (hreq : ∀ q p, i ≠ .resetReq q p)
      (hrack : s.link = .await → ∀ q p, i ≠ .resetAck q p) (hack : s.link = .est → ∀ a p, i ≠ .ack a p) :
      StepOutcome s (popped s rest)
  /-- R92. -/
  | rxUnknown (b : Bytes) (rest : List Bytes) (i : Instr) (ht : nextTurn s = .rxs) (hq : s.rxq = b :: rest)
      (hd : decode b = .ok i) (hc : 4 ≤ i.cmd.toNat) :
      StepOutcome s (emit (.log .unknownCmd) (popped s rest))
  /-- R86. -/
  | rxInOrder (b : Bytes) (rest : List Bytes) (p : Bytes) (ht : nextTurn s = .rxs) (hq : s.rxq = b :: rest)
      (hd : decode b = .ok (.data s.rxCursor p)) (hl : s.link = .est) :
      StepOutcome s (dataInOrder s.rxCursor p (popped s rest))
  /-- R87. -/
  | rxDuplicate (b : Bytes) (rest : List Bytes) (q : Seq) (p : Bytes) (ht : nextTurn s = .rxs)
      (hq : s.rxq = b :: rest) (hd : decode b = .ok (.data q p)) (hl : s.link = .est) :
      StepOutcome s (dataDuplicate (popped s rest))
  /-- R89. -/
  | rxAck (b : Bytes) (rest : List Bytes) (a : Seq) (p : Bytes) (ht : nextTurn s = .rxs)
      (hq : s.rxq = b :: rest) (hd : decode b = .ok (.ack a p)) (hl : s.link = .est) :
      StepOutcome s (retire a (popped s rest))
  /-- R90. -/
  | rxResetReq (b : Bytes) (rest : List Bytes) (q : Seq) (p : Bytes) (ht : nextTurn s = .rxs)
      (hq : s.rxq = b :: rest) (hd : decode b = .ok (.resetReq q p)) :
      StepOutcome s (peerReset (popped s rest))
  /-- R91, R112 with a RESET_REQ held. -/
  | rxResetAckHeld (b : Bytes) (rest : List Bytes) (q : Seq) (p : Bytes) (ht : nextTurn s = .rxs)
      (hq : s.rxq = b :: rest) (hd : decode b = .ok (.resetAck q p)) (hl : s.link = .await)
      (hh : s.holdsResetReq = true) : StepOutcome s (dropHold (establish (popped s rest)))
  /-- R91, R112 otherwise. -/
  | rxResetAck (b : Bytes) (rest : List Bytes) (q : Seq) (p : Bytes) (ht : nextTurn s = .rxs)
      (hq : s.rxq = b :: rest) (hd : decode b = .ok (.resetAck q p)) (hl : s.link = .await)
      (hh : s.holdsResetReq = false) : StepOutcome s (establish (popped s rest))
  /-- R99. -/
  | tx (r : DriverReply) (t : State) (ht : nextTurn s = .txs r) (h : TxOutcome r (spendTurn s) t) :
      StepOutcome s t

/-- All that a popped, decoded frame can do. -/
theorem received_outcome {s : State} {b : Bytes} {rest : List Bytes} {i : Instr} (ht : nextTurn s = .rxs)
    (hq : s.rxq = b :: rest) (hd : decode b = .ok i) : StepOutcome s (received i (popped s rest)) := by
  cases i with
  | data q p =>
    rcases receiveData_cases q p (popped s rest) with ⟨_, e⟩ | ⟨hl, h0, e⟩ | ⟨hl, _, e⟩ | ⟨_, _, e⟩ <;>
      simp only [received, e]
    · exact .rxDropped b rest _ ht hq hd (by simp) (by simp) (by simp)
    · obtain rfl : q = s.rxCursor := sdiff5_eq_zero h0
      exact .rxInOrder b rest p ht hq hd hl
    · exact .rxDuplicate b rest q p ht hq hd hl
    · exact .rxDropped b rest _ ht hq hd (by simp) (by simp) (by simp)
  | ack a p =>
    by_cases hl : s.link = .est
    · have e : received (.ack a p) (popped s rest) = retire a (popped s rest) :=
        if_neg (not_not.2 hl)
      rw [e]; exact .rxAck b rest a p ht hq hd hl
    · have e : received (.ack a p) (popped s rest) = popped s rest := if_pos hl
      rw [e]; exact .rxDropped b rest _ ht hq hd (by simp) (by simp) fun h => absurd h hl
  | resetReq q p => exact .rxResetReq b rest q p ht hq hd
  | resetAck q p =>
    by_cases hl : s.link = .await
    · have e : received (.resetAck q p) (popped s rest) = resetComplete (popped s rest) := if_pos hl
      rw [e]
      rcases resetComplete_cases (popped s rest) with ⟨hh, e⟩ | ⟨hh, e⟩ <;> rw [e]
      · exact .rxResetAckHeld b rest q p ht hq hd hl hh
      · exact .rxResetAck b rest q p ht hq hd hl hh
    · have e : received (.resetAck q p) (popped s rest) = popped s rest := if_neg hl
      rw [e]; exact .rxDropped b rest _ ht hq hd (by simp) (fun h => absurd h hl) (by simp)
  | reserved4 q p => exact .rxUnknown b rest _ ht hq hd (show 4 ≤ BitVec.toNat (4 : Cmd) by decide)
  | reserved5 q p => exact .rxUnknown b rest _ ht hq hd (show 4 ≤ BitVec.toNat (5 : Cmd) by decide)
  | reserved6 q p => exact .rxUnknown b rest _ ht hq hd (show 4 ≤ BitVec.toNat (6 : Cmd) by decide)
  | reserved7 q p => exact .rxUnknown b rest _ ht hq hd (show 4 ≤ BitVec.toNat (7 : Cmd) by decide)

/-- All that a step can do. -/
theorem step_outcome {s t : State} (h : step s = .next t) : StepOutcome s t := by
  obtain ⟨_, h⟩ := step_next h
  cases ht : nextTurn s <;> rw [ht] at h <;> simp only [takeTurn] at h
  case submit p =>
    cases h
    rcases submit_cases p (spendTurn s) with ⟨hp, e⟩ | ⟨hp, hf, e⟩ | ⟨hp, hf, e⟩ <;> rw [e]
    · exact .submitRefused p ht hp
    · exact .submitBlocked p ht hp hf
    · exact .submitQueued p ht hp hf
  case resume i =>
    cases h
    rcases resumeSubmit_cases i (spendTurn s) with e | ⟨p, hw, hf, e⟩ <;> rw [e]
    · exact .resumeIdle i ht
    · exact .resumeQueued i p ht hw hf
  case rxFrame b =>
    cases h
    rcases rxFrame_cases b (spendTurn s) with ⟨_, e⟩ | ⟨hb, hf, e⟩ <;> rw [e]
    · exact .frameDropped b ht
    · exact .frameQueued b ht hb hf
  case txReady =>
    cases h
    rcases txReady_cases (spendTurn s) with ⟨_, e⟩ | ⟨hh, e⟩ <;> rw [e]
    · exact .readyIgnored ht
    · exact .readyLatched ht hh
  case tick => cases h; exact .ticked ht
  case init => cases h; exact .initialized ht
  case txs r => exact .tx r t ht (txStep_outcome h)
  case rxs =>
    rcases rxStep_next h with ⟨hq, rfl⟩ | ⟨rest, hq, rfl⟩ | ⟨b, rest, i, hq, hd, rfl⟩
    · exact .rxIdle ht hq
    · exact .rxMalformed rest ht hq
    · exact received_outcome ht hq hd

/-- A step spends one turn and writes no configuration (R33, R45). -/
theorem step_spends {s t : State} (h : step s = .next t) :
    t.script = s.script.tail ∧ t.steps = s.steps + 1 ∧ t.cfg = s.cfg := by
  cases step_outcome h with
  | tx r t _ hx => cases hx <;> exact ⟨rfl, rfl, rfl⟩
  | _ => exact ⟨rfl, rfl, rfl⟩

theorem filterMap_range_succ {β : Type} (f : Nat → Option β) (k : Nat) :
    (List.range (k + 1)).filterMap f = (List.range k).filterMap f ++ (f k).toList := by
  rw [List.range_succ, List.filterMap_append]
  cases h : f k <;> simp [h]

@[simp] theorem inboundFrames_zero (sched : Nat → Turn) (n : Nat) : inboundFrames sched n 0 = [] := rfl

theorem inboundFrames_succ (sched : Nat → Turn) (n k : Nat) :
    inboundFrames sched n (k + 1) = inboundFrames sched n k ++ (Turn.inboundFrame (sched (n + k))).toList :=
  filterMap_range_succ _ k

@[simp] theorem handledFrames_zero (sched : Nat → Turn) (run : Nat → State) (n : Nat) :
    handledFrames sched run n 0 = [] := rfl

theorem handledFrames_succ (sched : Nat → Turn) (run : Nat → State) (n k : Nat) :
    handledFrames sched run n (k + 1) = handledFrames sched run n k ++
      (if rxTaken sched run (n + k) then (run (n + k)).rxq.head? else none).toList :=
  filterMap_range_succ _ k

/-- A run of `k + 1` steps is a step and a run of `k`. -/
theorem run_of_step {s u : State} (h : step s = .next u) (k : Nat) :
    Sys2Proof.core.run (k + 1) s = Sys2Proof.core.run k u := by
  have h' : Sys2Proof.core.step s = .next u := h
  simp only [Host.Core.run.eq_def Sys2Proof.core (k + 1) s, h']

/-- A run of `k + 1` steps that answers a next state begins with a step that does. -/
theorem run_succ_next {s t : State} {k : Nat} (h : Sys2Proof.core.run (k + 1) s = .next t) :
    ∃ u, step s = .next u ∧ Sys2Proof.core.run k u = .next t := by
  simp only [Host.Core.run.eq_def Sys2Proof.core (k + 1) s] at h
  split at h
  · exact ⟨_, ‹_›, h⟩
  · cases h
  · cases h

end Sys2Proof.Machine
end

