-- ==== Sys2Proof/Tests/Slice0.lean ====
section
/-!
SUPPORT. Tests. Expected results come from spec/95_test_vectors.md (a vector's number stands beside each test) or from the
encoding table R61, never from the model; then, for each statement with hypotheses, a state and operands that meet
them, each clause at the ends of its range.
-/

namespace Sys2Proof.Tests

open Sys2Proof Sys2Proof.Machine

/-! ### Helpers -/

/-- The parameters of spec/95_test_vectors.md, section 0. -/
def vectorConfig : Config :=
  { w := 1, txqDepth := 4, rxqDepth := 4, maxRetx := 5, resetMaxRetry := 5,
    rtoTicks := 3, resetRtoTicks := 3, busyWaitTicks := 2 }

/-- POR of spec/95_test_vectors.md. -/
def por : State := State.powerOn vectorConfig

/-- E0 of spec/95_test_vectors.md. -/
def e0 : State := { por with link := .est }

/-- After INIT. -/
def awaiting : State := { por with link := .await, reqPending := true }

/-- `s` with a window of `n`. -/
def windowed (n : Nat) (s : State) : State := { s with cfg := { s.cfg with w := n } }

/-- `s` with `t` as its next turn. -/
def turn (t : Turn) (s : State) : State := { s with script := [t] }

/-- `s` with the frame `b` at the head of RXQ and the RX step next. -/
def receives (b : Bytes) (s : State) : State := turn .rxs { s with rxq := b :: s.rxq }

/-- `s` after the environment's choice is spent. -/
def spent (s : State) : State := { s with script := [], steps := s.steps + 1 }

/-- The outcome is the next state `t`. -/
def isNext (o : Host.Outcome State Fault Refusal) (t : State) : Bool :=
  match o with
  | .next s => decide (s = t)
  | _ => false

/-- The outcome is a next state. -/
def completes (o : Host.Outcome State Fault Refusal) : Bool :=
  match o with
  | .next _ => true
  | _ => false

/-- A payload of `n` zero bytes. -/
def zeros (n : Nat) : Bytes := List.replicate n 0

/-- V80's held frame. -/
def heldData : Held := ⟨[0x00, 0x41], cmdData, 0⟩

/-- The end of V80. -/
def e80 : State := { e0 with ofq := [⟨0, [0x41], 0, 0⟩], nextTxSeq := 1, hold := some heldData }

/-! ### Well-formedness: the one check, met and not met -/

theorem test_wellFormed_refuses_256_bytes : (Instr.data 0 (zeros 256)).wellFormed = false := by decide +kernel

theorem test_wellFormed_takes_255_bytes : (Instr.data 0 (zeros 255)).wellFormed = true := by decide +kernel

/-! ### Decoding: for each row of R61, words written out bit by bit as `sssss` and the command -/

theorem test_decode_data : decode [0b10000000, 0xFF] = .ok (.data 16 [0xFF]) := by decide  -- V21
theorem test_decode_ack : decode [0b00101001, 0xAA] = .ok (.ack 5 [0xAA]) := by decide  -- V22
theorem test_decode_resetReq : decode [0b00001010] = .ok (.resetReq 1 []) := by decide  -- V17
theorem test_decode_resetAck : decode [0b00010011] = .ok (.resetAck 2 []) := by decide  -- V18
theorem test_decode_reserved4 : decode [0b00000100] = .ok (.reserved4 0 []) := by decide  -- R61
theorem test_decode_reserved5 : decode [0b10100101, 0x01, 0x02] = .ok (.reserved5 20 [0x01, 0x02]) := by decide  -- V19
theorem test_decode_reserved6 : decode [0b01000110] = .ok (.reserved6 8 []) := by decide  -- R61
theorem test_decode_reserved7 : decode [0b11111111, 0x00] = .ok (.reserved7 31 [0x00]) := by decide  -- V20
theorem test_decode_empty : decode [] = .error .malformedFrame := by decide  -- V13
theorem test_encode_data : encode (.data 31 [0x5A]) = .ok [0xF8, 0x5A] := by decide  -- V8
theorem test_encode_ack : encode (.ack 31 []) = .ok [0xF9] := by decide  -- V5
theorem test_table_word : decodeTableWord 8 0x0A = some (.resetReq 1 []) := by decide  -- V17
theorem test_table_word_two_bytes : decodeTableWord 16 0x5AF8 = some (.data 31 [0x5A]) := by decide  -- V8

/-! ### The comparator -/

theorem test_sdiff5 : sdiff5 16 0 = -16 ∧ sdiff5 0 16 = -16 ∧ sdiff5 2 30 = 4 ∧ sdiff5 15 0 = 15 := by
  decide  -- V27, V28, V30
theorem test_seqLe : seqLe 29 2 = true ∧ seqLe 3 2 = false ∧ seqLe 16 0 = true := by decide  -- V36

/-! ### Each frame on receipt, one step -/

/-- V46. -/
theorem test_data_in_order_wraps :
    isNext (step (receives [0xF8, 0x5A] { e0 with rxCursor := 31, lastDeliveredSeq := 30 }))
      (spent { e0 with rxCursor := 0, ackPending := true, trace := [.deliver [0x5A]] }) = true := by decide

/-- V49. -/
theorem test_data_sixteen_ahead_is_duplicate :
    isNext (step (receives [0x98, 0x41] { e0 with rxCursor := 3, lastDeliveredSeq := 2 }))
      (spent { e0 with rxCursor := 3, lastDeliveredSeq := 2, ackPending := true }) = true := by decide

/-- V86. -/
theorem test_ack_retires_across_wrap :
    isNext (step (receives [0xF9] (windowed 3
        { e0 with ofq := [⟨30, [], 0, 0⟩, ⟨31, [], 0, 0⟩, ⟨0, [], 0, 0⟩], nextTxSeq := 1 })))
      (spent (windowed 3 { e0 with ofq := [⟨0, [], 0, 0⟩], nextTxSeq := 1 })) = true := by decide

/-- V55. -/
theorem test_ack_outside_est_is_dropped :
    isNext (step (receives [0x01] awaiting)) (spent awaiting) = true := by decide

/-- V57. -/
theorem test_resetReq_clears_both_directions :
    isNext (step (receives [0x02] { e0 with
        rxCursor := 9, lastDeliveredSeq := 8, ofq := [⟨3, [], 0, 0⟩], nextTxSeq := 4, txq := [[0x43]] }))
      (spent { e0 with rstAckPending := true, txq := [[0x43]] }) = true := by decide

/-- V59. -/
theorem test_resetReq_ends_own_handshake :
    isNext (step (receives [0x02] awaiting)) (spent { e0 with rstAckPending := true }) = true := by decide

/-- V63. -/
theorem test_resetAck_drops_held_resetReq :
    isNext (step (receives [0x03] { awaiting with
        reqPending := false, hold := some ⟨[0x02], cmdResetReq, 0⟩, waitAge := 1 }))
      (spent e0) = true := by decide

/-- V62. -/
theorem test_resetAck_in_est_is_ignored :
    isNext (step (receives [0x03] { e0 with rxCursor := 4, lastDeliveredSeq := 3 }))
      (spent { e0 with rxCursor := 4, lastDeliveredSeq := 3 }) = true := by decide

/-- V64. -/
theorem test_reserved4 :
    isNext (step (receives [0x04] por)) (spent { por with trace := [.log .unknownCmd] }) = true := by decide
/-- V64. -/
theorem test_reserved5 :
    isNext (step (receives [0x0D] e0)) (spent { e0 with trace := [.log .unknownCmd] }) = true := by decide
/-- R92. -/
theorem test_reserved6 :
    isNext (step (receives [0x06] awaiting)) (spent { awaiting with trace := [.log .unknownCmd] }) = true := by
  decide
/-- V64. -/
theorem test_reserved7 :
    isNext (step (receives [0xFF, 0x00] e0)) (spent { e0 with trace := [.log .unknownCmd] }) = true := by decide

/-- V58, as the first instruction after reset. -/
theorem test_first_instruction_after_reset :
    (match step (State.reset.withFetchWord 8 0x02) with
      | .next t => t.link == .est && t.rstAckPending
      | _ => false) = true := by decide

/-! ### The other operations, one step -/

/-- V80. -/
theorem test_new_data_busy :
    isNext (step (turn (.txs .busy) { e0 with txq := [[0x41]] }))
      (spent { e80 with trace := [.wireTx [0x00, 0x41] .busy] }) = true := by decide

/-- V76. -/
theorem test_retransmit :
    isNext (step (turn (.txs .ok) { e0 with ofq := [⟨0, [0x41], 0, 3⟩], nextTxSeq := 1 }))
      (spent { e0 with
        ofq := [⟨0, [0x41], 1, 0⟩], nextTxSeq := 1, trace := [.wireTx [0x00, 0x41] .ok] }) = true := by decide

/-- V79. -/
theorem test_retry_ceiling :
    isNext (step (turn (.txs .ok) { e0 with ofq := [⟨0, [0x41], 5, 3⟩], nextTxSeq := 1, txq := [[0x42]] }))
      (spent { awaiting with txq := [[0x42]], trace := [.log .retxCeiling] }) = true := by decide

/-- V83, its last step. -/
theorem test_bounded_wait_runs_out :
    isNext (step (turn (.txs .ok) { e80 with ofq := [⟨0, [0x41], 0, 2⟩], waitAge := 2 }))
      (spent { e80 with
        hold := none, trace := [.log .busyWaitTimeout, .wireTx [0x00, 0x41] .ok] }) = true := by decide

/-- V92. -/
theorem test_reset_ceiling :
    isNext (step (turn (.txs .ok) { awaiting with reqPending := false, resetAge := 3, resetRetry := 5 }))
      (spent { por with trace := [.log .resetCeiling, .connLost] }) = true := by decide

/-- Section 1.7, step 1. -/
theorem test_init_mid_transfer :
    isNext (step (turn .init { e0 with
        ofq := [⟨1, [0x42], 2, 1⟩], txq := [[0x43]], rxq := [[0x08, 0x42]], rxCursor := 5,
        lastDeliveredSeq := 4, ackPending := true, nextTxSeq := 2, hold := some ⟨[0x21], cmdAck, 4⟩,
        waitAge := 1 }))
      (spent awaiting) = true := by decide

/-- V100, its first TICK. -/
theorem test_tick_counts_wait_and_age :
    isNext (step (turn .tick e80))
      (spent { e80 with waitAge := 1, ofq := [⟨0, [0x41], 0, 1⟩] }) = true := by decide

/-- V38. -/
theorem test_full_rxq_drops :
    isNext (step (turn (.rxFrame [0x00, 0x41]) { e0 with rxq := [[1], [1], [1], [1]] }))
      (spent { e0 with rxq := [[1], [1], [1], [1]] }) = true := by decide

/-- V66. -/
theorem test_oversize_submit_is_rejected :
    isNext (step (turn (.submit (zeros 256)) { e0 with txq := [[1], [1], [1], [1]] }))
      (spent { e0 with
        txq := [[1], [1], [1], [1]], trace := [.rejectOversizeFrame],
        submitReply := some .oversizeFrame }) = true := by decide +kernel

/-! ### Witnesses: for each statement with hypotheses, a state and operands that meet them -/

theorem witness_EncodeWritesHeaderThenPayload :
    (zeros 0).length ≤ 255 ∧ (zeros 255).length ≤ 255 ∧ 255 < (zeros 256).length := by decide +kernel

theorem witness_EncodedFrameDecodesToItself :
    (Instr.ack 31 (zeros 255)).wellFormed = true ∧ (Instr.ack 31 (zeros 256)).wellFormed = false := by
  decide +kernel

theorem witness_DecodedFrameEncodesToItself :
    1 ≤ (zeros 1).length ∧ (zeros 1).length ≤ mtu ∧ 1 ≤ (zeros 256).length ∧ (zeros 256).length ≤ mtu := by
  decide +kernel

theorem witness_WindowOfFifteenIsCutRightly :
    seqDiff 16 0 = 16 ∧ seqDiff 15 0 ≠ 16 ∧ seqDiff 17 0 ≠ 16 ∧ seqDiff 5 5 ≠ 16 ∧
      15 ≤ 15 ∧ 14 < 15 ∧ 0 ≤ 15 := by decide

theorem witness_InOrderDataIsDelivered :
    e0.link = .est ∧ 0 = e0.rxCursor ∧ { e0 with rxCursor := 31 }.link = .est := by decide

theorem witness_DuplicateIsAckedGapIsDiscarded :
    e0.link = .est ∧ sdiff5 31 e0.rxCursor < 0 ∧ sdiff5 16 e0.rxCursor < 0 ∧
      0 < sdiff5 1 e0.rxCursor ∧ 0 < sdiff5 15 e0.rxCursor := by decide

theorem witness_DataIsSortedThreeWays :
    awaiting.link ≠ .est ∧ por.link ≠ .est ∧ e0.link = .est ∧ seqDiff 0 e0.rxCursor = 0 ∧
      seqDiff e0.rxCursor 31 = 1 ∧ seqDiff e0.rxCursor 16 = 16 ∧
      seqDiff 1 e0.rxCursor = 1 ∧ seqDiff 15 e0.rxCursor = 15 := by decide

theorem witness_AckRetiresUpToItsNumber : e80.link = .est ∧ awaiting.link ≠ .est := by decide

/-- A block whose RESET_REQ is held. -/
def holdingReq : State :=
  { awaiting with reqPending := false, hold := some ⟨[0x02], cmdResetReq, 0⟩ }

theorem witness_ResetAckCompletesHandshake :
    e0.link ≠ .await ∧ holdingReq.link = .await ∧ (∃ f k, holdingReq.hold = some ⟨f, cmdResetReq, k⟩) ∧
      awaiting.link = .await ∧ ¬ ∃ f k, awaiting.hold = some ⟨f, cmdResetReq, k⟩ :=
  ⟨by decide, rfl, ⟨_, _, rfl⟩, rfl, fun ⟨_, _, h⟩ => by cases h⟩

theorem witness_MalformedFrameIsDroppedAndLogged :
    (receives [] e0).cfg.legal = true ∧ nextTurn (receives [] e0) = .rxs ∧ (receives [] e0).rxq = [[]] := by
  decide

theorem witness_InboundFrameIsQueuedOrDropped :
    (∃ s b, s.cfg.legal = true ∧ nextTurn s = .rxFrame b ∧ b.length = 256 ∧ s.rxq.length < s.cfg.rxqDepth) ∧
      (∃ s b, s.cfg.legal = true ∧ nextTurn s = .rxFrame b ∧ b.length = 257) ∧
      ∃ s b, s.cfg.legal = true ∧ nextTurn s = .rxFrame b ∧ b.length = 0 ∧ s.rxq.length = s.cfg.rxqDepth :=
  ⟨⟨turn (.rxFrame (zeros 256)) { e0 with rxq := [[1], [1], [1]] }, zeros 256, by decide +kernel⟩,
    ⟨turn (.rxFrame (zeros 257)) e0, zeros 257, by decide +kernel⟩,
    turn (.rxFrame []) { e0 with rxq := [[1], [1], [1], [1]] }, [], by decide⟩

theorem witness_StepTakesTheNextTurn :
    (turn .tick e0).cfg.legal = true ∧ (turn .tick e0).script = [.tick] ∧ e0.script = [] := by decide

theorem witness_StepRunsTheDecodedFrame :
    (receives [0x02] e0).cfg.legal = true ∧ nextTurn (receives [0x02] e0) = .rxs ∧
      (receives [0x02] e0).rxq = [[0x02]] ∧ decode [0x02] = .ok (.resetReq 0 []) ∧
      nextTurn (turn .rxs e0) = .rxs ∧ (turn .rxs e0).rxq = [] := by decide

theorem witness_OnlyTxStepsSend :
    ∃ t, step (turn (.txs .ok) awaiting) = .next t ∧ t.trace = awaiting.trace ++ [.wireTx [0x02] .ok] ∧
      Event.wireFrame (.wireTx [0x02] .ok) ≠ none := ⟨_, rfl, by decide, by decide⟩

theorem witness_DeliveryFollowsTheCursor :
    ∃ t, step (receives [0x00, 0x41] e0) = .next t ∧ t.trace = [.deliver [0x41]] := ⟨_, rfl, by decide⟩

/-- TXQ full. -/
def fullTxq : State := { e0 with txq := [[1], [2], [3], [4]] }

theorem witness_SubmitAcceptsRefusesOrBlocks :
    (∃ s p, s.cfg.legal = true ∧ nextTurn s = .submit p ∧ p.length = 256) ∧
      (∃ s p, s.cfg.legal = true ∧ nextTurn s = .submit p ∧ p.length = 255 ∧ s.txq.length ≠ s.cfg.txqDepth) ∧
      ∃ s p, s.cfg.legal = true ∧ nextTurn s = .submit p ∧ p.length = 255 ∧ s.txq.length = s.cfg.txqDepth :=
  ⟨⟨turn (.submit (zeros 256)) fullTxq, zeros 256, by decide +kernel⟩,
    ⟨turn (.submit (zeros 255)) e0, zeros 255, by decide +kernel⟩,
    turn (.submit (zeros 255)) fullTxq, zeros 255, by decide +kernel⟩

/-- The last clause of `SubmitAcceptsRefusesOrBlocks`, by INIT and by a TX step. -/
theorem witness_SubmitIsEnabledAgain :
    (∃ s t, s.txq.length = s.cfg.txqDepth ∧ step s = .next t ∧ nextTurn s = .init) ∧
      ∃ s t r, s.txq.length = s.cfg.txqDepth ∧ step s = .next t ∧ nextTurn s = .txs r ∧ t.txq ≠ s.txq :=
  ⟨⟨turn .init fullTxq, _, by decide, rfl, rfl⟩, turn (.txs .ok) fullTxq, _, .ok, by decide, rfl, rfl, by decide⟩

theorem witness_BlockedSubmitIsTakenWhenThereIsRoom :
    (∃ s p, s.cfg.legal = true ∧ nextTurn s = .submit p ∧ p.length ≤ 255 ∧ s.txq.length = s.cfg.txqDepth) ∧
      (∃ (s : State) (p : Bytes) (pre post : List Bytes), s.cfg.legal = true ∧ s.waiting = pre ++ p :: post ∧
        nextTurn s = .resume pre.length ∧ s.txq.length ≠ s.cfg.txqDepth) ∧
      (∃ (s : State) (p : Bytes) (pre post : List Bytes), s.cfg.legal = true ∧ s.waiting = pre ++ p :: post ∧
        nextTurn s = .resume pre.length ∧ s.txq.length = s.cfg.txqDepth) ∧
      ∃ s i, s.cfg.legal = true ∧ nextTurn s = .resume i ∧ s.waiting.length = i :=
  ⟨⟨turn (.submit [0x41]) fullTxq, [0x41], by decide⟩,
    ⟨turn (.resume 1) { e0 with waiting := [[5], [6], [7]] }, [6], [[5]], [[7]], by decide⟩,
    ⟨turn (.resume 0) { fullTxq with waiting := [[6]] }, [6], [], [], by decide⟩,
    turn (.resume 1) { e0 with waiting := [[5]] }, 1, by decide⟩

theorem witness_ReadySignalIsLatchedWhileHeld :
    (∃ s, s.cfg.legal = true ∧ nextTurn s = .txReady ∧ s.hold ≠ none) ∧
      ∃ s, s.cfg.legal = true ∧ nextTurn s = .txReady ∧ s.hold = none :=
  ⟨⟨turn .txReady e80, by decide⟩, turn .txReady e0, by decide⟩

theorem witness_AcceptanceRestartsOneTimer :
    (∃ e ∈ e80.ofq, e.seq = 0) ∧ (¬ ∃ e ∈ e80.ofq, e.seq = 1) ∧ awaiting.link = .await ∧ e0.link ≠ .await ∧
      cmdAck ≠ cmdData ∧ cmdAck ≠ cmdResetReq := by decide

theorem witness_HeldFrameIsRetried :
    (∃ s h r, s.cfg.legal = true ∧ nextTurn s = .txs r ∧ s.hold = some h ∧ s.readySeen = false ∧
        s.waitAge + 1 = s.cfg.busyWaitTicks) ∧
      (∃ s h r, s.cfg.legal = true ∧ nextTurn s = .txs r ∧ s.hold = some h ∧ s.readySeen = true) ∧
      ∃ s h r, s.cfg.legal = true ∧ nextTurn s = .txs r ∧ s.hold = some h ∧ s.readySeen = false ∧
        s.waitAge = s.cfg.busyWaitTicks :=
  ⟨⟨turn (.txs .ok) { e80 with waitAge := 1 }, heldData, .ok, by decide⟩,
    ⟨turn (.txs .busy) { e80 with readySeen := true }, heldData, .busy, by decide⟩,
    turn (.txs .ok) { e80 with waitAge := 2 }, heldData, .ok, by decide⟩

/-- Two outstanding frames, the second expired. -/
def secondExpired : State :=
  windowed 3 { e0 with ofq := [⟨0, [0x41], 0, 2⟩, ⟨1, [0x42], 4, 3⟩], nextTxSeq := 2, txq := [[0x43]] }

theorem witness_TxStepTakesTheFirstEnabledAction :
    e80.hold = some heldData ∧ ¬ (e80.readySeen = true ∨ e80.waitAge = e80.cfg.busyWaitTicks) ∧
      { e80 with waitAge := 2 }.waitAge = e80.cfg.busyWaitTicks ∧
      e0.hold = none ∧ { e0 with rstAckPending := true }.rstAckPending = true ∧ e0.rstAckPending = false ∧
      por.link = .disc ∧ awaiting.link = .await ∧ awaiting.reqPending = true ∧
      { awaiting with reqPending := false, resetAge := 3 }.resetAge = awaiting.cfg.resetRtoTicks ∧
      { awaiting with reqPending := false, resetAge := 2 }.resetAge ≠ awaiting.cfg.resetRtoTicks ∧
      e0.link = .est ∧ { e0 with ackPending := true }.ackPending = true ∧
      secondExpired.ofq = [⟨0, [0x41], 0, 2⟩] ++ ⟨1, [0x42], 4, 3⟩ :: [] ∧
      (∀ x ∈ [(⟨0, [0x41], 0, 2⟩ : Entry)], x.age ≠ secondExpired.cfg.rtoTicks) ∧
      (∀ e ∈ e80.ofq, e.age ≠ e80.cfg.rtoTicks) ∧ e80.cfg.w ≤ e80.ofq.length ∧
      e0.txq = [] ∧ fullTxq.txq = [1] :: [[2], [3], [4]] ∧ fullTxq.ofq.length < fullTxq.cfg.w := by decide

theorem witness_PendingAckIsSent :
    ∃ s r, s.cfg.legal = true ∧ nextTurn s = .txs r ∧ s.hold = none ∧ s.rstAckPending = false ∧
      s.link = .est ∧ s.ackPending = true :=
  ⟨turn (.txs .busy) { e0 with ackPending := true }, .busy, by decide⟩

theorem witness_OldestExpiredFrameIsRetransmitted :
    ∃ (s : State) (r : DriverReply) (pre post : List Entry) (e : Entry),
      s.cfg.legal = true ∧ nextTurn s = .txs r ∧ s.hold = none ∧ s.rstAckPending = false ∧ s.link = .est ∧
      s.ackPending = false ∧ s.ofq = pre ++ e :: post ∧ (∀ x ∈ pre, x.age ≠ s.cfg.rtoTicks) ∧
      e.age = s.cfg.rtoTicks ∧ e.retx + 1 = s.cfg.maxRetx ∧ e.payload.length ≤ 255 ∧
      r = .ok ∧ (∀ x ∈ pre ++ post, x.seq ≠ e.seq) :=
  ⟨turn (.txs .ok) secondExpired, .ok, [⟨0, [0x41], 0, 2⟩], [], ⟨1, [0x42], 4, 3⟩, by decide⟩

/-- One outstanding frame, expired at the ceiling. -/
def atCeiling : State := { e0 with ofq := [⟨0, [0x41], 5, 3⟩], nextTxSeq := 1 }

theorem witness_RetryCeilingResetsTheLink :
    ∃ (s : State) (r : DriverReply) (pre post : List Entry) (e : Entry),
      s.cfg.legal = true ∧ nextTurn s = .txs r ∧ s.hold = none ∧ s.rstAckPending = false ∧ s.link = .est ∧
      s.ackPending = false ∧ s.ofq = pre ++ e :: post ∧ (∀ x ∈ pre, x.age ≠ s.cfg.rtoTicks) ∧
      e.age = s.cfg.rtoTicks ∧ s.cfg.maxRetx = e.retx :=
  ⟨turn (.txs .ok) atCeiling, .ok, [], [], ⟨0, [0x41], 5, 3⟩, by decide⟩

/-- A window of two with one frame outstanding and a largest payload queued. -/
def roomForOne : State :=
  windowed 2 { e0 with ofq := [⟨31, [0x41], 0, 2⟩], nextTxSeq := 0, txq := [zeros 255] }

theorem witness_NewDataTakesTheNextNumber :
    ∃ (s : State) (r : DriverReply) (p : Bytes) (rest : List Bytes),
      s.cfg.legal = true ∧ nextTurn s = .txs r ∧ s.hold = none ∧ s.rstAckPending = false ∧ s.link = .est ∧
      s.ackPending = false ∧ (∀ e ∈ s.ofq, e.age ≠ s.cfg.rtoTicks) ∧ s.txq = p :: rest ∧
      s.ofq.length + 1 = s.cfg.w ∧ p.length = 255 ∧ (∀ e ∈ s.ofq, e.seq ≠ s.nextTxSeq) :=
  ⟨turn (.txs .ok) roomForOne, .ok, zeros 255, [], by decide +kernel⟩

theorem witness_NothingPassesAHeldFrame :
    (∃ s t h r, nextTurn s = .txs r ∧ s.hold = some h ∧ step s = .next t ∧ t.hold = some h) ∧
      (∃ s t h, s.hold = some h ∧ step s = .next t ∧ nextTurn s = .txs .ok ∧ t.hold = none) ∧
      ∃ s t h, s.hold = some h ∧ step s = .next t ∧ t.hold = none ∧ h.kind = cmdResetReq ∧ nextTurn s = .rxs :=
  ⟨⟨turn (.txs .busy) { e80 with waitAge := 2 }, _, heldData, .busy, rfl, rfl, rfl, rfl⟩,
    ⟨turn (.txs .ok) { e80 with waitAge := 2 }, _, heldData, rfl, rfl, rfl, rfl⟩,
    receives [0x03] holdingReq, _, ⟨[0x02], cmdResetReq, 0⟩, rfl, rfl, rfl, rfl, rfl⟩

theorem witness_AckGoesBeforeNewData :
    ∃ s t r, nextTurn s = .txs r ∧ step s = .next t ∧ t.txq ≠ s.txq :=
  ⟨turn (.txs .ok) fullTxq, _, .ok, rfl, rfl, by decide⟩

theorem witness_NumbersGoToPayloadsInQueueOrder :
    (∃ t, step (turn (.txs .ok) { fullTxq with nextTxSeq := 31 }) = .next t ∧ t.nextTxSeq ≠ 31) ∧
      ∃ t, step (turn (.txs .ok) atCeiling) = .next t ∧ t.nextTxSeq ≠ atCeiling.nextTxSeq :=
  ⟨⟨_, rfl, by decide⟩, _, rfl, by decide⟩

theorem witness_OutstandingFrameLeavesOnlyByAckOrReset :
    ∃ t, step (receives [0x01] e80) = .next t ∧ (⟨0, [0x41], 0, 0⟩ : Entry) ∈ e80.ofq ∧ t.ofq = [] :=
  ⟨_, rfl, by decide, by decide⟩

theorem witness_InitClearsTheWholeBlock :
    (turn .init e80).cfg.legal = true ∧ nextTurn (turn .init e80) = .init := by decide

/-- `e80` with INIT asserted twice. -/
def twoInits : State := { e80 with script := [.init, .init] }

theorem witness_InitIsIdempotent :
    (∃ t u, nextTurn twoInits = .init ∧ step twoInits = .next t ∧ nextTurn t = .init ∧ step t = .next u) ∧
      (turn .init e80).cfg = (turn .init por).cfg ∧ nextTurn (turn .init por) = .init ∧
      ∃ t', step (turn .init por) = .next t' :=
  ⟨⟨_, _, rfl, rfl, rfl, rfl⟩, rfl, rfl, _, rfl⟩

/-- AWAIT with the reset timer run out after `n` retries. -/
def resetTimedOut (n : Nat) : State := { awaiting with reqPending := false, resetAge := 3, resetRetry := n }

theorem witness_LinkMovesOnlyByTheTransitionTable :
    (∃ t, step (turn .init e0) = .next t ∧ nextTurn (turn .init e0) = .init) ∧
      (∃ t, step (turn (.txs .ok) atCeiling) = .next t ∧ HitsRetryCeiling (turn (.txs .ok) atCeiling)) ∧
      (∃ t, step (receives [0x02] por) = .next t ∧ TakesResetReq (receives [0x02] por)) ∧
      (∃ t, step (receives [0x03] awaiting) = .next t ∧ TakesResetAck (receives [0x03] awaiting)) ∧
      (∃ t, step (turn (.txs .ok) (resetTimedOut 4)) = .next t ∧
        ResetTimerFires (turn (.txs .ok) (resetTimedOut 4)) ∧ 4 < awaiting.cfg.resetMaxRetry) ∧
      (∃ t, step (turn (.txs .ok) (resetTimedOut 5)) = .next t ∧
        ResetTimerFires (turn (.txs .ok) (resetTimedOut 5)) ∧ awaiting.cfg.resetMaxRetry ≤ 5) :=
  ⟨⟨_, rfl, rfl⟩, ⟨_, rfl, ⟨_, rfl⟩, _, rfl, by decide⟩, ⟨_, rfl, rfl, _, _, _, _, rfl, rfl⟩,
    ⟨_, rfl, rfl, _, _, _, _, rfl, rfl⟩, ⟨_, rfl, ⟨⟨_, rfl⟩, rfl⟩, by decide⟩,
    ⟨_, rfl, ⟨⟨_, rfl⟩, rfl⟩, by decide⟩⟩

/-- The last clause of `LinkMovesOnlyByTheTransitionTable`: a TICK is none of the transitions. -/
theorem witness_LinkStaysOtherwise :
    ∃ t, step (turn .tick awaiting) = .next t ∧ nextTurn (turn .tick awaiting) ≠ .init ∧
      ¬ HitsRetryCeiling (turn .tick awaiting) ∧ ¬ TakesResetReq (turn .tick awaiting) ∧
      ¬ TakesResetAck (turn .tick awaiting) ∧ ¬ ResetTimerFires (turn .tick awaiting) :=
  ⟨_, rfl, by decide, fun ⟨⟨_, h⟩, _⟩ => (nomatch h), fun ⟨h, _⟩ => (nomatch h), fun ⟨h, _⟩ => (nomatch h),
    fun ⟨⟨_, h⟩, _⟩ => (nomatch h)⟩

theorem witness_DueResetReqIsSent :
    ∃ s r, s.cfg.legal = true ∧ nextTurn s = .txs r ∧ s.hold = none ∧ s.rstAckPending = false ∧
      s.link = .await ∧ s.reqPending = true := ⟨turn (.txs .ok) awaiting, .ok, by decide⟩

theorem witness_DueResetAckIsSent :
    ∃ s r, s.cfg.legal = true ∧ nextTurn s = .txs r ∧ s.hold = none ∧ s.rstAckPending = true :=
  ⟨turn (.txs .busy) { e0 with rstAckPending := true, ackPending := true }, .busy, by decide⟩

theorem witness_ResetTimeoutRetriesThenGivesUp :
    (∃ s r, s.cfg.legal = true ∧ nextTurn s = .txs r ∧ s.hold = none ∧ s.rstAckPending = false ∧
        s.link = .await ∧ s.reqPending = false ∧ s.resetAge = s.cfg.resetRtoTicks ∧
        s.resetRetry + 1 = s.cfg.resetMaxRetry) ∧
      ∃ s r, s.cfg.legal = true ∧ nextTurn s = .txs r ∧ s.hold = none ∧ s.rstAckPending = false ∧
        s.link = .await ∧ s.reqPending = false ∧ s.resetAge = s.cfg.resetRtoTicks ∧
        s.cfg.resetMaxRetry = s.resetRetry :=
  ⟨⟨turn (.txs .ok) (resetTimedOut 4), .ok, by decide⟩, turn (.txs .ok) (resetTimedOut 5), .ok, by decide⟩

theorem witness_EstablishedStartsAtSequenceZero :
    Inv (receives [0x03] awaiting) ∧ awaiting.link ≠ .est ∧
      ∃ t, step (receives [0x03] awaiting) = .next t ∧ t.link = .est := ⟨by decide, by decide, _, rfl, rfl⟩

theorem witness_HandshakeConvergesOnBothSides :
    (∃ a b : State, a.cfg.legal = true ∧ b.cfg.legal = true ∧ b.rxq = [] ∧
        a.script = [.init, .txs .ok, .rxFrame [0x03], .rxs] ∧
        b.script = [.rxFrame [0x02], .rxs, .txs .ok]) ∧
      ∃ a : State, a.cfg.legal = true ∧
        a.script = [.init, .txs .ok, .rxFrame [0x02], .rxs, .txs .ok, .rxFrame [0x03], .rxs] :=
  ⟨⟨{ por with script := [.init, .txs .ok, .rxFrame [0x03], .rxs] },
      { e80 with script := [.rxFrame [0x02], .rxs, .txs .ok] }, by decide⟩,
    { e80 with script := [.init, .txs .ok, .rxFrame [0x02], .rxs, .txs .ok, .rxFrame [0x03], .rxs] }, by decide⟩

theorem witness_TickCountsEveryTimer :
    (turn .tick e80).cfg.legal = true ∧ nextTurn (turn .tick e80) = .tick := by decide

theorem witness_TicksRunOutEveryRetransmissionTimer :
    ∃ (n : Nat) (s : State) (rest : List Turn), s.cfg.legal = true ∧
      s.script = List.replicate n .tick ++ rest ∧ (∀ e ∈ s.ofq, e.age ≤ s.cfg.rtoTicks) ∧ s.cfg.rtoTicks = n :=
  ⟨3, { e80 with script := [.tick, .tick, .tick] }, [], by decide⟩

theorem witness_NoErrorStopsTheBlock : Inv e80 ∧ Inv por ∧ Inv awaiting :=
  ⟨by decide, by decide, by decide⟩

/-- A configuration outside R7's ranges. -/
def noWindow : State := windowed 0 e0

/-- A state outside the spec's types: a queued payload of 256 bytes. -/
def overlongQueued : State := turn (.txs .ok) { e0 with txq := [zeros 256] }

/-- A state outside the spec's types: an outstanding payload of 256 bytes, expired. -/
def overlongOutstanding : State := turn (.txs .ok) { e0 with ofq := [⟨0, zeros 256, 0, 3⟩], nextTxSeq := 1 }

theorem witness_OnlyIllegalStatesStop_config : noWindow.cfg.legal = false ∧ (windowed 16 e0).cfg.legal = false := by
  decide

theorem witness_OnlyIllegalStatesStop_refusal :
    (match step noWindow with
      | .refused .illegalConfiguration => true
      | _ => false) = true := by decide

theorem witness_OnlyIllegalStatesStop_payload :
    overlongQueued.cfg.legal = true ∧ nextTurn overlongQueued = .txs .ok ∧
      txAction (spendTurn overlongQueued) = some (.newData (zeros 256) []) ∧ 255 < (zeros 256).length ∧
      overlongOutstanding.cfg.legal = true ∧ nextTurn overlongOutstanding = .txs .ok ∧
      txAction (spendTurn overlongOutstanding) = some (.expiry ⟨0, zeros 256, 0, 3⟩) ∧
      0 < overlongOutstanding.cfg.maxRetx := by decide +kernel

theorem witness_OnlyIllegalStatesStop_fault :
    (match step overlongQueued with
      | .fault .oversizeFrame => true
      | _ => false) = true := by decide +kernel

theorem witness_PowerOnStateWaitsForAReset : vectorConfig.legal = true ∧ (zeros 255).length ≤ 255 := by
  decide +kernel

theorem witness_InvariantHoldsAtReset :
    vectorConfig.legal = true ∧ { vectorConfig with w := 15, maxRetx := 8 }.legal = true := by decide

theorem witness_EveryStepKeepsTheInvariant :
    Inv (turn (.txs .busy) roomForOne) ∧ completes (step (turn (.txs .busy) roomForOne)) = true :=
  ⟨by decide +kernel, by decide +kernel⟩

/-- A full window of 15, and the ACK that covers it all. -/
def fullWindow : State :=
  receives [0xF1] (windowed 15
    { e0 with ofq := (List.range 15).map fun k => ⟨BitVec.ofNat 5 (16 + k), [], 0, 0⟩, nextTxSeq := 31 })

theorem witness_LegitimateStepsKeepTheNumbering :
    Inv fullWindow ∧ OfqNumbered fullWindow ∧ LegitimateAck 30 fullWindow ∧ decode [0xF1] = .ok (.ack 30 []) ∧
      completes (step fullWindow) = true :=
  ⟨by decide +kernel, by decide +kernel, by decide +kernel, by decide, by decide +kernel⟩

/-- A window of three outstanding frames, and an ACK for a number never sent (R139). -/
def strayAck : State :=
  receives [0x91] (windowed 3
    { e0 with ofq := [⟨0, [], 0, 0⟩, ⟨1, [], 0, 0⟩, ⟨2, [], 0, 0⟩], nextTxSeq := 3 })

/-- The premise of `LegitimateStepsKeepTheNumbering` is not always true: this ACK is not legitimate. -/
theorem witness_AckMayBeIllegitimate : decode [0x91] = .ok (.ack 18 []) ∧ ¬ LegitimateAck 18 strayAck := by decide

/-- Two outstanding entries carry the number the next frame takes or repeats (only after unchecked ACKs, R139). -/
def twoAlike : State :=
  windowed 3 { e0 with ofq := [⟨0, [0x41], 0, 3⟩, ⟨0, [0x42], 0, 3⟩], nextTxSeq := 0, txq := [[0x43]] }

/-- The clause of `OldestExpiredFrameIsRetransmitted` with several entries of one number. -/
theorem witness_OldestExpiredFrameSharesItsNumber :
    ∃ (s : State) (post : List Entry) (e : Entry),
      s.cfg.legal = true ∧ nextTurn s = .txs .ok ∧ s.hold = none ∧ s.rstAckPending = false ∧ s.link = .est ∧
      s.ackPending = false ∧ s.ofq = [] ++ e :: post ∧ e.age = s.cfg.rtoTicks ∧ e.retx < s.cfg.maxRetx ∧
      e.payload.length ≤ 255 ∧ ∃ x ∈ post, x.seq = e.seq :=
  ⟨turn (.txs .ok) twoAlike, [⟨0, [0x42], 0, 3⟩], ⟨0, [0x41], 0, 3⟩, by decide⟩

/-- The clause of `NewDataTakesTheNextNumber` with the number already outstanding. -/
theorem witness_NewDataSharesItsNumber :
    ∃ (s : State) (p : Bytes) (rest : List Bytes),
      s.cfg.legal = true ∧ nextTurn s = .txs .ok ∧ s.hold = none ∧ s.rstAckPending = false ∧ s.link = .est ∧
      s.ackPending = false ∧ (∀ e ∈ s.ofq, e.age ≠ s.cfg.rtoTicks) ∧ s.txq = p :: rest ∧
      s.ofq.length < s.cfg.w ∧ p.length ≤ 255 ∧ ∃ e ∈ s.ofq, e.seq = s.nextTxSeq :=
  ⟨turn (.txs .ok) { twoAlike with ofq := [⟨0, [0x41], 0, 2⟩] }, [0x43], [], by decide⟩

theorem witness_AgentsWriteOnlyTheirElements :
    (∃ t, step (receives [0x01] e80) = .next t ∧ nextTurn (receives [0x01] e80) = .rxs) ∧
      (∃ t, step (turn (.txs .ok) atCeiling) = .next t ∧ nextTurn (turn (.txs .ok) atCeiling) = .txs .ok) ∧
      ∃ t, step (turn .tick e80) = .next t ∧ nextTurn (turn .tick e80) ≠ .init ∧
        nextTurn (turn .tick e80) ≠ .rxs ∧ ∀ r, nextTurn (turn .tick e80) ≠ .txs r :=
  ⟨⟨_, rfl, rfl⟩, ⟨_, rfl, rfl⟩, _, rfl, by decide, by decide, fun r => by cases r <;> decide⟩

theorem witness_QuiescentBlockWaitsForInput :
    (turn .rxs por).cfg.legal = true ∧ Quiescent (turn .rxs por) ∧ nextTurn (turn .rxs por) = .rxs ∧
      Quiescent (turn (.txs .ok) e80) ∧ nextTurn (turn (.txs .ok) e80) = .txs .ok := by decide

/-- The clauses of `QuiescentBlockWaitsForInput` for one worker, while the other has something to do. -/
theorem witness_OneWorkerIdle :
    (∃ s, s.cfg.legal = true ∧ nextTurn s = .rxs ∧ s.rxq = [] ∧ txAction s = some .sendAck) ∧
      ∃ s r, s.cfg.legal = true ∧ nextTurn s = .txs r ∧ txAction s = none ∧ s.hold = none ∧ s.rxq ≠ [] :=
  ⟨⟨turn .rxs { e0 with ackPending := true }, by decide⟩,
    turn (.txs .ok) { e0 with rxq := [[0x00]] }, .ok, by decide⟩

theorem witness_OutputsNeverSteerTheBlock :
    ∃ t, step (turn (.submit [0x41]) { e0 with trace := [.connLost] }) = .next t := ⟨_, rfl⟩

theorem witness_OnlyTheFourCommandsAreSent :
    Inv (turn (.txs .ok) { e80 with readySeen := true }) ∧
      ∃ t, step (turn (.txs .ok) { e80 with readySeen := true }) = .next t ∧
        t.trace = [.wireTx [0x00, 0x41] .ok] := ⟨by decide, _, rfl, by decide⟩

/-- Two frames queued, a third arriving between the RX turns. -/
def threeFrames : State := { e0 with rxq := [[0x00], [0x08]], script := [.rxs, .rxFrame [0x10], .rxs] }

theorem witness_QueuedFramesAreHandledInOrder :
    threeFrames.script = [.rxs, .rxFrame [0x10], .rxs] ++ [] ∧ Turn.init ∉ threeFrames.script ∧
      ∃ t, Sys2Proof.core.run [Turn.rxs, .rxFrame [0x10], .rxs].length threeFrames = .next t :=
  ⟨rfl, by decide, _, rfl⟩

/-- A frame is queued at the start; RXS and TXS take turns. -/
def fairSched (n : Nat) : Turn := if n % 2 = 0 then .rxs else .txs .ok

/-- The run of `fairSched`: a DATA frame reaches a block in DISC and is dropped; then nothing is enabled. -/
def fairRun : Nat → State
  | 0 => { por with rxq := [[0x00]] }
  | n + 1 => { por with steps := n + 1 }

theorem witness_FairRunHandlesEveryQueuedFrame :
    IsRun fairSched fairRun ∧ WeaklyFair fairSched fairRun ∧ (∀ m, 0 ≤ m → fairSched m ≠ .init) ∧
      (fairRun 0).rxq.length = 1 := by
  refine ⟨fun n => ?_, ⟨fun n _ => ⟨2 * n, by omega, by simp [fairSched]⟩,
    fun n _ => ⟨2 * n + 1, .ok, by omega, by simp [fairSched]⟩⟩, fun m _ => ?_, rfl⟩
  · cases n with
    | zero => rfl
    | succ n =>
      rcases Nat.mod_two_eq_zero_or_one (n + 1) with h | h <;> simp only [fairSched, h] <;> rfl
  · unfold fairSched; split <;> decide

end Sys2Proof.Tests
end

section
/-!
The output codes (30_encoding.md section 3, 60_exceptions.md section 1): LINK_STATE and the numbers of the log codes.
-/
namespace Sys2Proof.Machine

/-- R34: the level output shows `link` and nothing else of the state. -/
@[simp] theorem State.linkState_eq (s : State) : s.linkState = s.link.encode := rfl

/-- R63: `0b11` encodes none of the three link states. -/
theorem Link.encode_ne_unused (l : Link) : l.encode ≠ 0b11 := by
  cases l with
  | disc | await | est => decide

/-- R63, R34: no state shows the unused value on LINK_STATE. -/
theorem State.linkState_ne_unused (s : State) : s.linkState ≠ 0b11 := by
  rw [s.linkState_eq]
  exact s.link.encode_ne_unused

/-- Settles O47: the encodings and the log numbers are the tables' rows; `0b11` is excluded for every link state. -/
theorem outputCodesAreTheTables : Obligations.OutputCodesAreTheTables := by
  have levelOutput (s : State) : s.linkState = s.link.encode ∧ s.linkState ≠ 0b11 :=
    ⟨s.linkState_eq, s.linkState_ne_unused⟩
  exact ⟨rfl, rfl, rfl, levelOutput, rfl, rfl, rfl, rfl, rfl⟩

end Sys2Proof.Machine
end

section
/-!
The codec as numbers (40_codec.md): what the header byte and its two fields are as values (R55), and what `encodeFrame` and
`decodeFrame` answer (R69, R70).
-/
namespace Sys2Proof

/-- R55: the concatenation of the fields as a value; the command's three bits do not reach the sequence number's. -/
theorem headerByte_toNat (cmd : Cmd) (seq : Seq) : (headerByte cmd seq).toNat = seq.toNat * 8 + cmd.toNat :=
  calc (headerByte cmd seq).toNat
    _ = seq.toNat <<< 3 ||| cmd.toNat := BitVec.toNat_append seq cmd
    _ = seq.toNat <<< 3 + cmd.toNat := (Nat.shiftLeft_add_eq_or_of_lt cmd.isLt seq.toNat).symm
    _ = seq.toNat * 8 + cmd.toNat := by rw [Nat.shiftLeft_eq]

/-- R55: `h[2:0]` as a value. -/
theorem headerCmd_toNat (h : Byte) : (headerCmd h).toNat = h.toNat % 8 :=
  BitVec.extractLsb'_toNat 0 3 h

/-- R55: `h[7:3]` as a value; a byte divided by 8 fits in five bits, so nothing is cut off. -/
theorem headerSeq_toNat (h : Byte) : (headerSeq h).toNat = h.toNat / 8 := by
  have fits : h.toNat / 2 ^ 3 < 2 ^ 5 := by have := h.isLt; omega
  calc (headerSeq h).toNat
    _ = h.toNat >>> 3 % 2 ^ 5 := BitVec.extractLsb'_toNat 3 5 h
    _ = h.toNat / 2 ^ 3 := by rw [Nat.shiftRight_eq_div_pow, Nat.mod_eq_of_lt fits]
    _ = h.toNat / 8 := rfl

theorem encodeFrame_of_gt (cmd : Cmd) (seq : Seq) {p : Bytes} (h : maxPayload < p.length) :
    encodeFrame cmd seq p = .error (.oversizeFrame p.length) :=
  if_pos h

@[simp] theorem decodeFrame_nil : decodeFrame [] = .error .malformedFrame := rfl

@[simp] theorem decodeFrame_cons (h : Byte) (p : Bytes) :
    decodeFrame (h :: p) = .ok (headerCmd h, headerSeq h, p) := rfl

/-- Settles O1: the header is `headerByte cmd seq`, and the bound 255 is `maxPayload`. -/
theorem encodeWritesHeaderThenPayload : Obligations.EncodeWritesHeaderThenPayload := by
  intro cmd seq p
  rw [← maxPayload_eq]
  exact ⟨fun hle => ⟨headerByte cmd seq, encodeFrame_of_le cmd seq hle, headerByte_toNat cmd seq⟩,
    encodeFrame_of_gt cmd seq⟩

/-- Settles O2: the fields read are `headerCmd h` and `headerSeq h`. -/
theorem decodeReadsHeaderThenPayload : Obligations.DecodeReadsHeaderThenPayload :=
  ⟨decodeFrame_nil, fun h p =>
    ⟨headerCmd h, headerSeq h, decodeFrame_cons h p, headerCmd_toNat h, headerSeq_toNat h⟩⟩

end Sys2Proof
end

section
/-!
The comparator's values (41_seqnum.md): each operation on sequence numbers as arithmetic on 0..31 (R73 to R78).
-/
namespace Sys2Proof.Machine

/-- R73. -/
theorem seqInc_toNat (a : Seq) : (seqInc a).toNat = (a.toNat + 1) % 32 :=
  BitVec.toNat_add a 1

/-- R74: the borrow of 32 keeps the subtraction of numbers from stopping at 0. -/
theorem seqDiff_eq (a b : Seq) : seqDiff a b = (a.toNat + 32 - b.toNat) % 32 := by
  have hb : b.toNat < 32 := b.isLt
  calc seqDiff a b
    _ = (32 - b.toNat + a.toNat) % 32 := BitVec.toNat_sub a b
    _ = (a.toNat + 32 - b.toNat) % 32 := by congr 1; omega

/-- R74: the distance is in 0..31. -/
theorem seqDiff_lt (a b : Seq) : seqDiff a b < 32 := (a - b).isLt

@[simp] theorem seqDiff_self (a : Seq) : seqDiff a a = 0 := by
  rw [seqDiff, BitVec.sub_self, BitVec.toNat_zero]

/-- R75, the near half: the distance itself. -/
theorem sdiff5_of_lt {a b : Seq} (h : seqDiff a b < 16) : sdiff5 a b = seqDiff a b := if_pos h

/-- R75, the far half, distance 16 included. -/
theorem sdiff5_of_ge {a b : Seq} (h : 16 ≤ seqDiff a b) : sdiff5 a b = (seqDiff a b : Int) - 32 :=
  if_neg (Nat.not_lt.mpr h)

/-- R75: the signed difference is in -16..15; each half of the distances gives one half of the range. -/
theorem sdiff5_bounds (a b : Seq) : -16 ≤ sdiff5 a b ∧ sdiff5 a b ≤ 15 := by
  have hd := seqDiff_lt a b
  rcases Nat.lt_or_ge (seqDiff a b) 16 with near | far
  · rw [sdiff5_of_lt near]; omega
  · rw [sdiff5_of_ge far]; omega

@[simp] theorem sdiff5_self (a : Seq) : sdiff5 a a = 0 := by
  rw [sdiff5_of_lt (by simp), seqDiff_self, Int.natCast_zero]

theorem sdiff5_eq_zero_iff {a b : Seq} : sdiff5 a b = 0 ↔ a = b :=
  ⟨sdiff5_eq_zero, fun h => h ▸ sdiff5_self a⟩

/-- R76. -/
theorem seqLt_iff {a b : Seq} : seqLt a b = true ↔ sdiff5 a b < 0 := decide_eq_true_iff

/-- R77. -/
theorem seqLe_iff {a b : Seq} : seqLe a b = true ↔ sdiff5 a b ≤ 0 := decide_eq_true_iff

/-- R78. -/
theorem seqEq_iff {a b : Seq} : seqEq a b = true ↔ a = b := beq_iff_eq

/-- Settles O7: the comparator's lemmas, one per rule; that equality is a signed difference of 0 is
`sdiff5_eq_zero_iff`. -/
theorem sequenceComparatorValues : Obligations.SequenceComparatorValues := by
  intro a b
  obtain ⟨lower, upper⟩ := sdiff5_bounds a b
  exact ⟨seqInc_toNat a, seqDiff_eq a b, rfl, lower, upper, seqLt_iff, seqLe_iff, seqEq_iff,
    seqEq_iff.trans sdiff5_eq_zero_iff.symm⟩

end Sys2Proof.Machine
end

section
/-!
What a step appends to the trace (42_receive.md R93): every step keeps the events so far, and outside a TX step
none of the new ones is an attempt at the driver.
-/
namespace Sys2Proof.Machine

/-- `t` has the events of `s` and then only events that are no attempt at the driver. -/
def AppendsNoAttempt (s t : State) : Prop :=
  ∃ es, t.trace = s.trace ++ es ∧ ∀ e ∈ es, e.wireFrame = none

theorem AppendsNoAttempt.of_trace_eq {s t : State} (h : t.trace = s.trace) : AppendsNoAttempt s t :=
  ⟨[], by rw [h, List.append_nil], by simp⟩

theorem AppendsNoAttempt.of_trace_append {s t : State} {e : Event} (h : t.trace = s.trace ++ [e])
    (he : e.wireFrame = none) : AppendsNoAttempt s t :=
  ⟨[e], h, by simpa using he⟩

/-- R99: no action of the TX step takes an event back. -/
theorem TxOutcome.trace_grows {r : DriverReply} {s t : State} (h : TxOutcome r s t) :
    ∃ es, t.trace = s.trace ++ es := by
  cases h with
  | idle | resetRetry => exact ⟨[], (List.append_nil _).symm⟩
  | _ => exact ⟨_, rfl⟩

/-- R93: a step that is no TX step makes no attempt. Four rules emit one event each, and the others none. -/
theorem StepOutcome.appendsNoAttempt_or_tx {s t : State} (h : StepOutcome s t) :
    AppendsNoAttempt s t ∨ ∃ r es, nextTurn s = .txs r ∧ t.trace = s.trace ++ es := by
  cases h with
  | tx r t ht hx =>
    obtain ⟨es, happ⟩ := hx.trace_grows
    exact .inr ⟨r, es, ht, happ⟩
  | submitRefused | rxMalformed | rxUnknown | rxInOrder => exact .inl (.of_trace_append rfl rfl)
  | _ => exact .inl (.of_trace_eq rfl)

/-- Settles O20: a step that makes no attempt has none to explain, and any other is a TX step. -/
theorem onlyTxStepsSend : Obligations.OnlyTxStepsSend := by
  intro s t h
  rcases (step_outcome h).appendsNoAttempt_or_tx with ⟨es, happ, hnone⟩ | ⟨r, es, ht, happ⟩
  · exact ⟨es, happ, fun ⟨e, he, hne⟩ => absurd (hnone e he) hne⟩
  · exact ⟨es, happ, fun _ => ⟨r, ht⟩⟩

end Sys2Proof.Machine
end

section
/-!
The sign of the signed difference (41_seqnum.md R75) by the forward and the backward distance, the terms in which
42_receive.md R85 sorts a DATA frame.
-/
namespace Sys2Proof.Machine

/-- R75: the two halves of the distances. -/
theorem sdiff5_cases (a b : Seq) :
    (seqDiff a b < 16 ∧ sdiff5 a b = seqDiff a b) ∨ (16 ≤ seqDiff a b ∧ sdiff5 a b = (seqDiff a b : Int) - 32) :=
  (Nat.lt_or_ge (seqDiff a b) 16).imp (fun near => ⟨near, sdiff5_of_lt near⟩) fun far => ⟨far, sdiff5_of_ge far⟩

theorem sdiff5_eq_zero_iff_seqDiff {a b : Seq} : sdiff5 a b = 0 ↔ seqDiff a b = 0 := by
  have halves := sdiff5_cases a b
  have hd := seqDiff_lt a b
  omega

theorem sdiff5_neg_iff {a b : Seq} : sdiff5 a b < 0 ↔ 16 ≤ seqDiff a b := by
  have halves := sdiff5_cases a b
  have hd := seqDiff_lt a b
  omega

theorem sdiff5_pos_iff {a b : Seq} : 0 < sdiff5 a b ↔ 1 ≤ seqDiff a b ∧ seqDiff a b ≤ 15 := by
  have halves := sdiff5_cases a b
  have hd := seqDiff_lt a b
  omega

/-- The two distances of different numbers go once round the circle of 32. -/
theorem seqDiff_add_seqDiff_swap {a b : Seq} (h : 1 ≤ seqDiff b a) : seqDiff a b + seqDiff b a = 32 := by
  have hab := seqDiff_eq a b
  have hba := seqDiff_eq b a
  have ha : a.toNat < 32 := a.isLt
  have hb : b.toNat < 32 := b.isLt
  omega

/-- R85: a backward distance of 1 to 16 is a negative difference, 16 included. -/
theorem sdiff5_neg_of_behind {a b : Seq} (h1 : 1 ≤ seqDiff b a) (h16 : seqDiff b a ≤ 16) : sdiff5 a b < 0 := by
  have circle := seqDiff_add_seqDiff_swap h1
  rw [sdiff5_neg_iff]; omega

end Sys2Proof.Machine
end

section
/-!
The receive sequencer's rules (42_receive.md R85 to R92): an equation per case of each rule, and the frame's meaning in
every state from them.
-/
namespace Sys2Proof.Machine

/-! ### DATA (R85 to R88) -/

theorem receiveData_of_ne_est {s : State} (q : Seq) (p : Bytes) (h : s.link ≠ .est) : receiveData q p s = s :=
  if_pos h

theorem receiveData_inOrder {s : State} {q : Seq} (p : Bytes) (hl : s.link = .est) (h : sdiff5 q s.rxCursor = 0) :
    receiveData q p s = dataInOrder q p s := by
  simp [receiveData, hl, h]

theorem receiveData_duplicate {s : State} {q : Seq} (p : Bytes) (hl : s.link = .est)
    (h : sdiff5 q s.rxCursor < 0) : receiveData q p s = dataDuplicate s := by
  simp [receiveData, hl, h, h.ne]

theorem receiveData_gap {s : State} {q : Seq} (p : Bytes) (hl : s.link = .est) (h : 0 < sdiff5 q s.rxCursor) :
    receiveData q p s = dataGap s := by
  simp [receiveData, hl, h.ne', h.not_gt]

/-- Settles O9: the frame's number is the cursor, so its difference is 0. -/
theorem inOrderDataIsDelivered : Obligations.InOrderDataIsDelivered := by
  intro s q p hl hq
  rw [exec_eq, received, receiveData_inOrder p hl (sdiff5_eq_zero_iff.mpr hq)]
  rfl

/-- Settles O10. -/
theorem duplicateIsAckedGapIsDiscarded : Obligations.DuplicateIsAckedGapIsDiscarded := by
  intro s q p hl
  rw [exec_eq, received]
  constructor
  · intro behind
    rw [receiveData_duplicate p hl behind]; rfl
  · intro ahead
    rw [receiveData_gap p hl ahead]; rfl

/-- Settles O11: the distances give the difference's sign, and the sign the case. -/
theorem dataIsSortedThreeWays : Obligations.DataIsSortedThreeWays := by
  intro s q p
  rw [exec_eq, received]
  refine ⟨fun hl => ?outside, fun hl => ⟨fun h0 => ?inOrder, fun h1 h16 => ?duplicate, fun h1 h15 => ?gap⟩⟩
  case outside => rw [receiveData_of_ne_est q p hl]
  case inOrder => rw [receiveData_inOrder p hl (sdiff5_eq_zero_iff_seqDiff.mpr h0)]
  case duplicate => rw [receiveData_duplicate p hl (sdiff5_neg_of_behind h1 h16)]
  case gap => rw [receiveData_gap p hl (sdiff5_pos_iff.mpr ⟨h1, h15⟩)]

/-! ### ACK (R89, R105) -/

theorem receiveAck_of_est {s : State} (a : Seq) (h : s.link = .est) : receiveAck a s = retire a s :=
  if_neg (not_not.mpr h)

theorem receiveAck_of_ne_est {s : State} (a : Seq) (h : s.link ≠ .est) : receiveAck a s = s := if_pos h

/-- R77: what is not at or before `b` is after it. -/
theorem not_seqLe_eq (a b : Seq) : (!seqLe a b) = decide (0 < sdiff5 a b) := by
  simp only [seqLe, ← decide_not, Int.not_le]

/-- R105: the entries that stay are those after the acknowledged number. -/
theorem retire_eq (a : Seq) (s : State) :
    retire a s = { s with ofq := s.ofq.filter fun e => decide (0 < sdiff5 e.seq a) } := by
  simp only [retire, not_seqLe_eq]

/-- Settles O12. -/
theorem ackRetiresUpToItsNumber : Obligations.AckRetiresUpToItsNumber := by
  intro s a p
  rw [exec_eq, received]
  exact ⟨fun hl => by rw [receiveAck_of_est a hl, retire_eq], fun hl => by rw [receiveAck_of_ne_est a hl]⟩

/-! ### RESET_REQ (R90, R108, R111) -/

/-- R108 and R111 as one update: the queues, the outputs and the configuration are not written. -/
theorem peerReset_eq (s : State) :
    peerReset s = { s with
      link := .est, rstAckPending := true,
      rxCursor := 0, lastDeliveredSeq := 31, ackPending := false,
      ofq := [], nextTxSeq := 0, hold := none, waitAge := 0, readySeen := false,
      reqPending := false, resetAge := 0, resetRetry := 0 } := rfl

/-- Settles O13: the frame's meaning is `peerReset`, with no condition on the link. -/
theorem resetReqClearsBothDirections : Obligations.ResetReqClearsBothDirections := by
  intro s q p
  rw [exec_eq, received, peerReset_eq]

/-! ### RESET_ACK (R91, R112) -/

theorem receiveResetAck_of_await {s : State} (h : s.link = .await) : receiveResetAck s = resetComplete s :=
  if_pos h

theorem receiveResetAck_of_ne_await {s : State} (h : s.link ≠ .await) : receiveResetAck s = s := if_neg h

theorem holdsResetReq_iff_hold (s : State) :
    s.holdsResetReq = true ↔ ∃ f k, s.hold = some ⟨f, cmdResetReq, k⟩ := by
  rw [holdsResetReq_iff]
  constructor
  · rintro ⟨⟨f, _, k⟩, hs, rfl⟩
    exact ⟨f, k, hs⟩
  · rintro ⟨f, k, hs⟩
    exact ⟨_, hs, rfl⟩

theorem resetComplete_of_held {s : State} (h : s.holdsResetReq = true) :
    resetComplete s = dropHold (establish s) := if_pos h

theorem resetComplete_of_not_held {s : State} (h : ¬ s.holdsResetReq = true) :
    resetComplete s = establish s := if_neg h

/-- Settles O14. -/
theorem resetAckCompletesHandshake : Obligations.ResetAckCompletesHandshake := by
  intro s q p
  rw [exec_eq, received, ← holdsResetReq_iff_hold]
  refine ⟨fun hl => ?ignored, fun hl held => ?dropped, fun hl other => ?kept⟩
  case ignored => rw [receiveResetAck_of_ne_await hl]
  case dropped => rw [receiveResetAck_of_await hl, resetComplete_of_held held]; rfl
  case kept => rw [receiveResetAck_of_await hl, resetComplete_of_not_held other]; rfl

/-! ### Reserved commands (R92) -/

/-- Settles O15: the four rows have the one meaning `dropUnknown`, an event and nothing else. -/
theorem reservedCommandsAreDroppedAndLogged : Obligations.ReservedCommandsAreDroppedAndLogged := by
  intro s q p
  have logged : dropUnknown s = { s with trace := s.trace ++ [.log .unknownCmd] } := rfl
  rw [← logged]
  exact ⟨exec_eq (.reserved4 q p) s, exec_eq (.reserved5 q p) s, exec_eq (.reserved6 q p) s,
    exec_eq (.reserved7 q p) s⟩

end Sys2Proof.Machine
end

section
/-!
RXQ's two ends (42_receive.md R82, R84): what the RX bridge pushes, and what RXS does with a frame that has no header.
-/
namespace Sys2Proof.Machine

/-- A step of a legal configuration takes the turn `t` that is next. -/
theorem step_of_turn {s : State} {t : Turn} (hc : s.cfg.legal = true) (ht : nextTurn s = t) :
    step s = takeTurn t (spendTurn s) := by
  rw [step_of_legal hc, ht]

/-- R84: only the empty frame fails to decode, and it is popped and logged. -/
theorem rxStep_of_empty_head {s : State} {rest : List Bytes} (h : s.rxq = [] :: rest) :
    rxStep s = .next (dropMalformed { s with rxq := rest }) := by
  simp only [rxStep, h, decode_nil]

/-- R82: the two drops are one condition; neither leaves an event. -/
theorem rxFrame_eq (b : Bytes) (s : State) :
    rxFrame b s =
      if mtu < b.length ∨ s.rxq.length = s.cfg.rxqDepth then s else { s with rxq := s.rxq ++ [b] } := by
  rcases rxFrame_cases b s with ⟨drop, h⟩ | ⟨fits, room, h⟩
  · rw [h, if_pos drop]
  · rw [h, if_neg (not_or.mpr ⟨Nat.not_lt.mpr fits, room⟩)]

/-- Settles O16. -/
theorem malformedFrameIsDroppedAndLogged : Obligations.MalformedFrameIsDroppedAndLogged := by
  intro s rest hc ht hq
  calc step s
    _ = rxStep (spendTurn s) := step_of_turn hc ht
    _ = .next (dropMalformed { spendTurn s with rxq := rest }) := rxStep_of_empty_head hq
    _ = .next { spendTurn s with rxq := rest, trace := s.trace ++ [.log .malformedFrame] } := rfl

/-- Settles O17: the bound 256 is `mtu`, and spending the turn leaves RXQ and its depth. -/
theorem inboundFrameIsQueuedOrDropped : Obligations.InboundFrameIsQueuedOrDropped := by
  intro s b hc ht
  calc step s
    _ = .next (rxFrame b (spendTurn s)) := step_of_turn hc ht
    _ = .next (if 256 < b.length ∨ s.rxq.length = s.cfg.rxqDepth then spendTurn s
          else { spendTurn s with rxq := s.rxq ++ [b] }) := by rw [rxFrame_eq, mtu_eq]; rfl

end Sys2Proof.Machine
end

section
/-!
The send primitive and driver acceptance (43_transmit.md R95 to R97): what an attempt writes for each reply, and which timer
acceptance restarts for each kind of frame.
-/
namespace Sys2Proof.Machine

/-! ### The ready signal (R95) -/

theorem txReady_of_held {s : State} (h : s.hold ≠ none) : txReady s = { s with readySeen := true } :=
  if_pos (Option.isSome_iff_ne_none.mpr h)

theorem txReady_of_free {s : State} (h : s.hold = none) : txReady s = s :=
  if_neg (by simp [h])

/-- Settles O24: spending the turn leaves `hold`. -/
theorem readySignalIsLatchedWhileHeld : Obligations.ReadySignalIsLatchedWhileHeld := by
  intro s hc ht
  have turn : step s = .next (txReady (spendTurn s)) := step_of_turn hc ht
  rw [turn]
  exact ⟨fun held => by rw [txReady_of_held (s := spendTurn s) held],
    fun free => by rw [txReady_of_free (s := spendTurn s) free]⟩

/-! ### Acceptance (R97) -/

theorem accepted_data (q : Seq) (s : State) :
    accepted cmdData q s = { s with ofq := restartAge q (Config.freeEntry s.steps) s.ofq } :=
  if_pos rfl

theorem accepted_resetReq_of_await {s : State} (q : Seq) (h : s.link = .await) :
    accepted cmdResetReq q s = { s with resetAge := 0 } := by
  rw [accepted, if_neg (by decide), if_pos ⟨rfl, h⟩]

theorem accepted_of_untimed {s : State} {k : Cmd} (q : Seq) (hd : k ≠ cmdData)
    (hr : ¬ (k = cmdResetReq ∧ s.link = .await)) : accepted k q s = s := by
  rw [accepted, if_neg hd, if_neg hr]

/-- Settles O26: a DATA number carried by some entry restarts one of them by `restartAge_one`; the other frames are the
cases of `accepted`. -/
theorem acceptanceRestartsOneTimer : Obligations.AcceptanceRestartsOneTimer := by
  refine ⟨fun s q carried => ?data, fun s q retired => ?retired, fun s q hl => accepted_resetReq_of_await q hl,
    fun s q hl => accepted_of_untimed q (by decide) fun h => hl h.2,
    fun s k q hd hr => accepted_of_untimed q hd fun h => hr h.1⟩
  case data =>
    obtain ⟨pre, e, post, split, number, restarted⟩ := restartAge_one (Config.freeEntry s.steps) carried
    exact ⟨pre, e, post, split, number, by rw [accepted_data, restarted]⟩
  case retired => rw [accepted_data, restartAge_none _ retired]

/-! ### The send primitive (R96) -/

theorem send_busy (f : Bytes) (k : Cmd) (q : Seq) (s : State) :
    send f k q .busy s = { attempt f .busy s with hold := some ⟨f, k, q⟩ } := rfl

theorem send_ok (f : Bytes) (k : Cmd) (q : Seq) (s : State) :
    send f k q .ok s = accepted k q (attempt f .ok s) := rfl

/-- Settles O25: an attempt appends its event and restarts the wait for both replies. -/
theorem sendEmitsAndHoldsOnBusy : Obligations.SendEmitsAndHoldsOnBusy := by
  intro s f k q
  have tried (r : DriverReply) : attempt f r s =
      { s with trace := s.trace ++ [.wireTx f r], waitAge := 0, readySeen := false } := rfl
  rw [send_busy, send_ok, tried, tried]
  exact ⟨rfl, rfl⟩

end Sys2Proof.Machine
end

section
/-!
The TX step's arbitration (43_transmit.md R99): one equation per line of the rule's list, and the oldest expired entry as a
split of the outstanding frames.
-/
namespace Sys2Proof.Machine

/-! ### The oldest expired entry (R101) -/

theorem expired_iff (s : State) (e : Entry) : s.expired e = true ↔ e.age = s.cfg.rtoTicks := beq_iff_eq

theorem not_expired_iff (s : State) (e : Entry) : s.expired e = false ↔ e.age ≠ s.cfg.rtoTicks :=
  beq_eq_false_iff_ne

theorem expiredEntry_of_split {s : State} {pre post : List Entry} {e : Entry} (split : s.ofq = pre ++ e :: post)
    (running : ∀ x ∈ pre, x.age ≠ s.cfg.rtoTicks) (out : e.age = s.cfg.rtoTicks) : s.expiredEntry = some e :=
  List.find?_eq_some_iff_append.mpr
    ⟨(expired_iff s e).mpr out, pre, post, split, fun x hx => by simpa [not_expired_iff] using running x hx⟩

theorem expiredEntry_of_running {s : State} (running : ∀ e ∈ s.ofq, e.age ≠ s.cfg.rtoTicks) :
    s.expiredEntry = none :=
  List.find?_eq_none.mpr fun e he => mt (expired_iff s e).mp (running e he)

/-! ### EST with no ACK due -/

theorem dataAction_of_expired {s : State} {e : Entry} (h : s.expiredEntry = some e) :
    dataAction s = some (.expiry e) := by
  simp only [dataAction, h]

theorem dataAction_of_room {s : State} {p : Bytes} {rest : List Bytes} (h : s.expiredEntry = none)
    (queued : s.txq = p :: rest) (room : s.ofq.length < s.cfg.w) : dataAction s = some (.newData p rest) := by
  simp only [dataAction, h, queued, if_pos room]

theorem dataAction_of_idle {s : State} (h : s.expiredEntry = none) (idle : s.txq = [] ∨ s.cfg.w ≤ s.ofq.length) :
    dataAction s = none := by
  cases queued : s.txq with
  | nil => simp only [dataAction, h, queued]
  | cons p rest =>
    have full : ¬ s.ofq.length < s.cfg.w := Nat.not_lt.mpr (idle.resolve_left (by simp [queued]))
    simp only [dataAction, h, queued, if_neg full]

/-! ### The list, top to bottom -/

theorem txAction_of_hold {s : State} {h : Held} (held : s.hold = some h) :
    txAction s =
      if s.readySeen = true ∨ s.waitAge = s.cfg.busyWaitTicks then some (.holdRetry h) else none := by
  simp only [txAction, held]

theorem txAction_of_rstAckPending {s : State} (free : s.hold = none) (due : s.rstAckPending = true) :
    txAction s = some .sendResetAck := by
  simp only [txAction, free, if_pos due]

section NothingBefore
variable {s : State} (free : s.hold = none) (noRstAck : s.rstAckPending = false)
include free noRstAck

theorem txAction_of_disc (hl : s.link = .disc) : txAction s = none := by
  simp [txAction, free, noRstAck, hl]

theorem txAction_of_await (hl : s.link = .await) :
    txAction s =
      if s.reqPending = true then some .sendResetReq
      else if s.resetAge = s.cfg.resetRtoTicks then some .resetTimeout
      else none := by
  simp [txAction, free, noRstAck, hl]

theorem txAction_of_est (hl : s.link = .est) :
    txAction s = if s.ackPending = true then some .sendAck else dataAction s := by
  simp [txAction, free, noRstAck, hl]

theorem txAction_of_ackPending (hl : s.link = .est) (due : s.ackPending = true) : txAction s = some .sendAck := by
  rw [txAction_of_est free noRstAck hl, if_pos due]

theorem txAction_of_noAck (hl : s.link = .est) (noAck : s.ackPending = false) : txAction s = dataAction s := by
  rw [txAction_of_est free noRstAck hl, if_neg (by simp [noAck])]

end NothingBefore

/-- Settles O28: the equations of `txAction`, in the order of the list. -/
theorem txStepTakesTheFirstEnabledAction : Obligations.TxStepTakesTheFirstEnabledAction := by
  intro s
  refine ⟨fun h held => ?held, fun free => ⟨txAction_of_rstAckPending free, fun noRstAck =>
    ⟨txAction_of_disc free noRstAck, fun hl => ?await, fun hl =>
      ⟨txAction_of_ackPending free noRstAck hl, fun noAck => ?data⟩⟩⟩⟩
  case held =>
    rw [txAction_of_hold held]
    exact ⟨fun ready => if_pos ready, fun wait => if_neg wait⟩
  case await =>
    rw [txAction_of_await free noRstAck hl]
    exact ⟨fun due => if_pos due, fun sent out => by rw [if_neg (by simp [sent]), if_pos out],
      fun sent running => by rw [if_neg (by simp [sent]), if_neg running]⟩
  case data =>
    rw [txAction_of_noAck free noRstAck hl noAck]
    exact ⟨fun _ _ _ split running out => dataAction_of_expired (expiredEntry_of_split split running out),
      fun running => ⟨fun _ _ => dataAction_of_room (expiredEntry_of_running running),
        dataAction_of_idle (expiredEntry_of_running running)⟩⟩

end Sys2Proof.Machine
end

section
/-!
The TX step's actions in EST (43_transmit.md R100 to R104): the step takes the chosen action, and a DATA attempt leaves the
outstanding frames as acceptance (R97) leaves them.
-/
namespace Sys2Proof.Machine

/-! ### The chosen action is taken -/

theorem txStep_of_action {r : DriverReply} {s : State} {a : TxAction} (h : txAction s = some a) :
    txStep r s = takeAction a r s := by
  simp only [txStep, h]

/-- The arbitration reads neither the script nor the step counter. -/
@[simp] theorem txAction_spendTurn (s : State) : txAction (spendTurn s) = txAction s := rfl

theorem step_of_txAction {s : State} {r : DriverReply} {a : TxAction} (hc : s.cfg.legal = true)
    (ht : nextTurn s = .txs r) (h : txAction s = some a) : step s = takeAction a r (spendTurn s) := by
  have chosen : txAction (spendTurn s) = some a := by rw [txAction_spendTurn, h]
  calc step s
    _ = txStep r (spendTurn s) := step_of_turn hc ht
    _ = takeAction a r (spendTurn s) := txStep_of_action chosen

/-! ### An attempt with nothing held (R96) -/

theorem heldAfter_none (f : Bytes) (k : Cmd) (q : Seq) (r : DriverReply) :
    heldAfter f k q r none = if r = .ok then none else some ⟨f, k, q⟩ := by
  cases r with
  | ok | busy => rfl

theorem attempted_of_free {s : State} (f : Bytes) (k : Cmd) (q : Seq) (r : DriverReply) (free : s.hold = none) :
    attempted f k q r s = { s with
      waitAge := 0, readySeen := false, trace := s.trace ++ [.wireTx f r],
      hold := if r = .ok then none else some ⟨f, k, q⟩ } := by
  rw [attempted, free, heldAfter_none]

/-- Settles O29: `ackPending` is cleared before the attempt, so in both replies. -/
theorem pendingAckIsSent : Obligations.PendingAckIsSent := by
  intro s r hc ht free noRstAck hl due
  calc step s
    _ = sendAck r (spendTurn s) := step_of_txAction hc ht (txAction_of_ackPending free noRstAck hl due)
    _ = .next (attempted [headerByte cmdAck s.lastDeliveredSeq] cmdAck s.lastDeliveredSeq r
          { spendTurn s with ackPending := false }) := sendAck_eq r (spendTurn s)
    _ = _ := by rw [attempted_of_free (s := { spendTurn s with ackPending := false }) _ _ _ _ free]; rfl

/-! ### What a DATA attempt makes of the outstanding frames (R97) -/

theorem RestartedOn.of_busy {q : Seq} {l m : List Entry} (h : RestartedOn .busy q l m) : l = m :=
  h.2 (.inl rfl)

theorem RestartedOn.of_ok {q : Seq} {l m : List Entry} (h : RestartedOn .ok q l m) (carried : ∃ e ∈ m, e.seq = q) :
    OneRestarted q l m :=
  h.1 rfl carried

/-- Where one entry alone carries the number, it is the one that restarts. -/
theorem OneRestarted.eq_of_alone {q : Seq} {l pre post : List Entry} {e : Entry}
    (h : OneRestarted q l (pre ++ e :: post)) (alone : ∀ x ∈ pre ++ post, x.seq ≠ q) :
    l = pre ++ { e with age := 0 } :: post := by
  obtain ⟨pre', x, post', split, number, rfl⟩ := h
  have notBefore : x ∉ pre := fun hx => alone x (List.mem_append_left post hx) number
  have notAfter : x ∉ post := fun hx => alone x (List.mem_append_right pre hx) number
  obtain ⟨rfl, rfl, rfl⟩ := (List.append_cons_inj_of_notMem notBefore notAfter).mp split
  rfl

/-- R96 and R97 for a DATA frame that fits: one attempt, and the ages by the driver's reply. -/
theorem sendEncoded_data_of_free {s : State} {p : Bytes} (q : Seq) (r : DriverReply) (free : s.hold = none)
    (fits : p.length ≤ 255) :
    ∃ l, RestartedOn r q l s.ofq ∧ sendEncoded cmdData q p r s = .next { s with
      ofq := l, waitAge := 0, readySeen := false, trace := s.trace ++ [.wireTx (headerByte cmdData q :: p) r],
      hold := if r = .ok then none else some ⟨headerByte cmdData q :: p, cmdData, q⟩ } := by
  obtain ⟨l, _, restarted, sent⟩ := send_data_eq (headerByte cmdData q :: p) q r s
  refine ⟨l, restarted, ?_⟩
  rw [sendEncoded_of_le _ _ _ _ fits, sent, attempted_of_free _ _ _ _ free]

/-! ### Retransmission (R101 to R103) -/

theorem step_of_expiry {s : State} {r : DriverReply} {pre post : List Entry} {e : Entry}
    (hc : s.cfg.legal = true) (ht : nextTurn s = .txs r) (free : s.hold = none) (noRstAck : s.rstAckPending = false)
    (hl : s.link = .est) (noAck : s.ackPending = false) (split : s.ofq = pre ++ e :: post)
    (running : ∀ x ∈ pre, x.age ≠ s.cfg.rtoTicks) (out : e.age = s.cfg.rtoTicks) :
    step s = retxExpiry e r (spendTurn s) := by
  have chosen : txAction s = some (.expiry e) := by
    rw [txAction_of_noAck free noRstAck hl noAck, dataAction_of_expired (expiredEntry_of_split split running out)]
  exact step_of_txAction hc ht chosen

theorem retxExpiry_of_lt {s : State} {e : Entry} (r : DriverReply) (h : e.retx < s.cfg.maxRetx) :
    retxExpiry e r s = sendEncoded cmdData e.seq e.payload r (countRetx s) := if_pos h

theorem retxExpiry_of_ge {s : State} {e : Entry} (r : DriverReply) (h : s.cfg.maxRetx ≤ e.retx) :
    retxExpiry e r s = .next (retryCeiling s) := if_neg (Nat.not_lt.mpr h)

/-- R102: the entry counted is the oldest expired one. -/
theorem countRetx_ofq_of_split {s : State} {pre post : List Entry} {e : Entry} (split : s.ofq = pre ++ e :: post)
    (running : ∀ x ∈ pre, x.age ≠ s.cfg.rtoTicks) (out : e.age = s.cfg.rtoTicks) :
    (countRetx s).ofq = pre ++ { e with retx := e.retx + 1 } :: post := by
  rw [countRetx_ofq, split]
  exact updateNth_zero _ _ _ _ _ (fun x hx => (not_expired_iff s x).mpr (running x hx)) ((expired_iff s e).mpr out)

/-- Settles O30: the counted entry keeps its number, so acceptance has an entry to restart. -/
theorem oldestExpiredFrameIsRetransmitted : Obligations.OldestExpiredFrameIsRetransmitted := by
  intro s r pre post e hc ht free noRstAck hl noAck split running out below fits
  have counted : (countRetx (spendTurn s)).ofq = pre ++ { e with retx := e.retx + 1 } :: post :=
    countRetx_ofq_of_split split running out
  obtain ⟨l, restarted, sent⟩ := sendEncoded_data_of_free (s := countRetx (spendTurn s)) e.seq r free fits
  rw [counted] at restarted
  have carried : ∃ x ∈ pre ++ { e with retx := e.retx + 1 } :: post, x.seq = e.seq :=
    ⟨_, List.mem_append_right pre List.mem_cons_self, rfl⟩
  refine ⟨l, ?step, ?busy, ?ok, ?alone⟩
  case step =>
    calc step s
      _ = retxExpiry e r (spendTurn s) := step_of_expiry hc ht free noRstAck hl noAck split running out
      _ = sendEncoded cmdData e.seq e.payload r (countRetx (spendTurn s)) := retxExpiry_of_lt r below
      _ = _ := sent
  case busy => rintro rfl; exact restarted.of_busy
  case ok => rintro rfl; exact restarted.of_ok carried
  case alone => rintro rfl alone; exact (restarted.of_ok carried).eq_of_alone alone

/-- Settles O31: R110 clears the elements of R108 and leaves the queues. -/
theorem retryCeilingResetsTheLink : Obligations.RetryCeilingResetsTheLink := by
  intro s r pre post e hc ht free noRstAck hl noAck split running out ceiling
  calc step s
    _ = retxExpiry e r (spendTurn s) := step_of_expiry hc ht free noRstAck hl noAck split running out
    _ = .next (retryCeiling (spendTurn s)) := retxExpiry_of_ge r ceiling
    _ = _ := rfl

/-! ### New DATA (R104) -/

/-- Settles O32: the entry is recorded before the attempt, with age 0, so restarting it alone changes nothing. -/
theorem newDataTakesTheNextNumber : Obligations.NewDataTakesTheNextNumber := by
  intro s r p rest hc ht free noRstAck hl noAck running queued room fits
  have chosen : txAction s = some (.newData p rest) := by
    rw [txAction_of_noAck free noRstAck hl noAck,
      dataAction_of_room (expiredEntry_of_running running) queued room]
  obtain ⟨l, restarted, sent⟩ :=
    sendEncoded_data_of_free (s := recordNewData p rest (spendTurn s)) s.nextTxSeq r free fits
  have carried : ∃ e ∈ s.ofq ++ [⟨s.nextTxSeq, p, 0, 0⟩], e.seq = s.nextTxSeq :=
    ⟨_, List.mem_append_right s.ofq List.mem_cons_self, rfl⟩
  refine ⟨l, ?step, ?ok, ?unchanged⟩
  case step =>
    calc step s
      _ = sendNewData p rest r (spendTurn s) := step_of_txAction hc ht chosen
      _ = _ := sent
  case ok => rintro rfl; exact restarted.of_ok carried
  case unchanged =>
    intro h
    cases r with
    | busy => exact restarted.of_busy
    | ok =>
      have fresh : ∀ e ∈ s.ofq, e.seq ≠ s.nextTxSeq := h.resolve_left nofun
      exact (restarted.of_ok carried).eq_of_alone (by simpa using fresh)

end Sys2Proof.Machine
end

section
/-!
The reset synchronizer's own actions (44_link_reset.md R109, R113 to R115): INIT, the two control frames, and the reset
timer's expiry.
-/
namespace Sys2Proof.Machine

/-- Settles O37: `initSession` writes every element of 10_state.md and reads none. -/
theorem initClearsTheWholeBlock : Obligations.InitClearsTheWholeBlock := by
  intro s hc ht
  calc step s
    _ = .next (initSession (spendTurn s)) := step_of_turn hc ht
    _ = _ := rfl

/-! ### The control frames (R113, R114) -/

/-- Settles O40: the timer starts at 0 before the attempt, so acceptance has nothing left to restart. -/
theorem dueResetReqIsSent : Obligations.DueResetReqIsSent := by
  intro s r hc ht free noRstAck hl due
  have chosen : txAction s = some .sendResetReq := by rw [txAction_of_await free noRstAck hl, if_pos due]
  calc step s
    _ = sendResetReq r (spendTurn s) := step_of_txAction hc ht chosen
    _ = .next (attempted [0x02] cmdResetReq 0 r { spendTurn s with reqPending := false, resetAge := 0 }) :=
      sendResetReq_eq r (spendTurn s)
    _ = _ := by
      rw [attempted_of_free (s := { spendTurn s with reqPending := false, resetAge := 0 }) _ _ _ _ free]; rfl

/-- Settles O41: the RESET_ACK is first in the arbitration once nothing is held. -/
theorem dueResetAckIsSent : Obligations.DueResetAckIsSent := by
  intro s r hc ht free due
  calc step s
    _ = sendResetAck r (spendTurn s) := step_of_txAction hc ht (txAction_of_rstAckPending free due)
    _ = .next (attempted [0x03] cmdResetAck 0 r { spendTurn s with rstAckPending := false }) :=
      sendResetAck_eq r (spendTurn s)
    _ = _ := by rw [attempted_of_free (s := { spendTurn s with rstAckPending := false }) _ _ _ _ free]; rfl

/-! ### The reset timer's expiry (R115) -/

theorem resetTimeout_of_lt {s : State} (h : s.resetRetry < s.cfg.resetMaxRetry) :
    resetTimeout s = { s with resetRetry := s.resetRetry + 1, reqPending := true } := if_pos h

theorem resetTimeout_of_ge {s : State} (h : s.cfg.resetMaxRetry ≤ s.resetRetry) :
    resetTimeout s = { s with
      link := .disc, resetAge := 0, resetRetry := 0, trace := s.trace ++ [.log .resetCeiling, .connLost] } := by
  rcases resetTimeout_cases s with ⟨below, _⟩ | ⟨_, gaveUp⟩
  · exact absurd h (Nat.not_le.mpr below)
  · exact gaveUp

theorem step_of_resetTimerFires {s : State} (hc : s.cfg.legal = true) (fires : ResetTimerFires s) :
    step s = .next (resetTimeout (spendTurn s)) := by
  obtain ⟨⟨r, ht⟩, chosen⟩ := fires
  exact step_of_txAction hc ht chosen

/-- Settles O42: the conditions are those of the timer's expiry, and the retry count picks the branch. -/
theorem resetTimeoutRetriesThenGivesUp : Obligations.ResetTimeoutRetriesThenGivesUp := by
  intro s r hc ht free noRstAck hl sent out
  have chosen : txAction s = some .resetTimeout := by
    rw [txAction_of_await free noRstAck hl, if_neg (by simp [sent]), if_pos out]
  rw [step_of_resetTimerFires hc ⟨⟨r, ht⟩, chosen⟩]
  exact ⟨fun below => congrArg _ (resetTimeout_of_lt (s := spendTurn s) below),
    fun ceiling => congrArg _ (resetTimeout_of_ge (s := spendTurn s) ceiling)⟩

end Sys2Proof.Machine
end

section
/-!
The transition table of the link state (44_link_reset.md R107): where each cause leads, and that a step with none of the
causes leaves the link as it was.
-/
namespace Sys2Proof.Machine

/-! ### A received reset frame -/

/-- R83: a frame that decodes is popped and has its row's meaning. -/
theorem next_of_frame {s t : State} {b : Bytes} {rest : List Bytes} {i : Instr} (h : step s = .next t)
    (ht : nextTurn s = .rxs) (hq : s.rxq = b :: rest) (hd : decode b = .ok i) : t = received i (popped s rest) := by
  obtain ⟨_, taken⟩ := step_next h
  have queued : (spendTurn s).rxq = b :: rest := hq
  simp only [ht, takeTurn, rxStep, queued, hd, exec_eq] at taken
  cases taken
  rfl

theorem TakesResetReq.next_link {s t : State} (taken : TakesResetReq s) (h : step s = .next t) : t.link = .est := by
  obtain ⟨ht, b, rest, q, p, hq, hd⟩ := taken
  rw [next_of_frame h ht hq hd, received, peerReset_link]

/-- R112: completion ends in EST, whether or not it drops a held RESET_REQ. -/
@[simp] theorem resetComplete_link (s : State) : (resetComplete s).link = .est := by
  rcases resetComplete_cases s with ⟨_, dropped⟩ | ⟨_, kept⟩
  · rw [dropped, dropHold_link, establish_link]
  · rw [kept, establish_link]

theorem TakesResetAck.next_link {s t : State} (taken : TakesResetAck s) (h : step s = .next t)
    (hl : s.link = .await) : t.link = .est := by
  obtain ⟨ht, b, rest, q, p, hq, hd⟩ := taken
  have awaiting : (popped s rest).link = .await := hl
  rw [next_of_frame h ht hq hd, received, receiveResetAck_of_await awaiting, resetComplete_link]

/-! ### The retry ceiling and the reset timer -/

theorem HitsRetryCeiling.link_eq {s : State} (hits : HitsRetryCeiling s) : s.link = .est := by
  obtain ⟨_, e, chosen, _⟩ := hits
  obtain ⟨_, _, hl, _⟩ := txAction_chosen chosen
  exact hl

theorem HitsRetryCeiling.next_link {s t : State} (hits : HitsRetryCeiling s) (h : step s = .next t) :
    t.link = .await := by
  obtain ⟨⟨r, ht⟩, e, chosen, ceiling⟩ := hits
  have reset : step s = .next (retryCeiling (spendTurn s)) :=
    calc step s
      _ = retxExpiry e r (spendTurn s) := step_of_txAction (step_next h).1 ht chosen
      _ = .next (retryCeiling (spendTurn s)) := retxExpiry_of_ge r ceiling
  cases h.symm.trans reset
  exact localReset_link _

theorem ResetTimerFires.link_eq {s : State} (fires : ResetTimerFires s) : s.link = .await := by
  obtain ⟨_, _, hl, _⟩ := txAction_chosen fires.2
  exact hl

theorem ResetTimerFires.next_eq {s t : State} (fires : ResetTimerFires s) (h : step s = .next t) :
    t = resetTimeout (spendTurn s) := by
  cases h.symm.trans (step_of_resetTimerFires (step_next h).1 fires)
  rfl

/-! ### The rows and no others -/

/-- R99: of the TX actions only the reset timer's expiry and the retry ceiling write the link. -/
theorem TxOutcome.link_eq_or_timer_or_ceiling {r : DriverReply} {s t : State} (h : TxOutcome r s t) :
    t.link = s.link ∨ txAction s = some .resetTimeout ∨
      ∃ e, txAction s = some (.expiry e) ∧ s.cfg.maxRetx ≤ e.retx := by
  cases h with
  | giveUp chosen => exact .inr (.inl chosen)
  | ceiling e chosen _ _ spent => exact .inr (.inr ⟨e, chosen, spent⟩)
  | _ => exact .inl rfl

/-- R107, "No other transition exists": a step that has none of the table's causes keeps the link. -/
theorem StepOutcome.link_eq_of_no_cause {s t : State} (h : StepOutcome s t) (noInit : nextTurn s ≠ .init)
    (noCeiling : ¬ HitsRetryCeiling s) (noReq : ¬ TakesResetReq s)
    (noAck : ¬ (s.link = .await ∧ TakesResetAck s)) (noTimer : ¬ ResetTimerFires s) : t.link = s.link := by
  cases h with
  | initialized ht => exact absurd ht noInit
  | rxResetReq b rest q p ht hq hd => exact absurd ⟨ht, b, rest, q, p, hq, hd⟩ noReq
  | rxResetAckHeld b rest q p ht hq hd hl | rxResetAck b rest q p ht hq hd hl =>
    exact absurd ⟨hl, ht, b, rest, q, p, hq, hd⟩ noAck
  | tx r t ht hx =>
    rcases hx.link_eq_or_timer_or_ceiling with same | timer | ceiling
    · exact same
    · exact absurd ⟨⟨r, ht⟩, timer⟩ noTimer
    · exact absurd ⟨⟨r, ht⟩, ceiling⟩ noCeiling
  | _ => rfl

/-- Settles O39: a lemma for each row of the table, and the inversion of `step` for the last clause. -/
theorem linkMovesOnlyByTheTransitionTable : Obligations.LinkMovesOnlyByTheTransitionTable := by
  refine ⟨fun _ => rfl, fun s t h => ⟨fun ht => ?init, fun hits => ⟨hits.link_eq, hits.next_link h⟩,
    fun taken => taken.next_link h, fun hl taken => taken.next_link h hl, fun fires => fires.link_eq,
    fun fires below => ?retry, fun fires ceiling => ?giveUp, (step_outcome h).link_eq_of_no_cause⟩⟩
  case init =>
    cases h.symm.trans (step_of_turn (step_next h).1 ht)
    exact initSession_link _
  case retry =>
    rw [fires.next_eq h, resetTimeout_of_lt (s := spendTurn s) below]
    exact fires.link_eq
  case giveUp => rw [fires.next_eq h, resetTimeout_of_ge (s := spendTurn s) ceiling]

end Sys2Proof.Machine
end

section
/-!
The timers (60_exceptions.md R125): what one TICK leaves in each of them.
-/
namespace Sys2Proof.Machine

/-- R125: with no frame held the wait timer stands still. -/
theorem tick_waitAge_of_free {s : State} (h : s.hold = none) : (tick s).waitAge = s.waitAge := by
  simp [h]

/-- R125: with a frame held the wait timer counts up to its bound. -/
theorem tick_waitAge_of_held {s : State} (h : s.hold ≠ none) :
    (tick s).waitAge = min (s.waitAge + 1) s.cfg.busyWaitTicks :=
  if_pos (Option.isSome_iff_ne_none.mpr h)

/-- R125: the wait timer after a TICK, by whether a frame is held. -/
theorem tick_waitAge_eq (s : State) :
    (tick s).waitAge = if s.hold = none then s.waitAge else min (s.waitAge + 1) s.cfg.busyWaitTicks := by
  split
  case isTrue free => exact tick_waitAge_of_free free
  case isFalse held => exact tick_waitAge_of_held held

/-- Settles O45: `tick` writes the three timers and nothing else, and the wait timer counts only while a frame is held. -/
theorem tickCountsEveryTimer : Obligations.TickCountsEveryTimer := by
  intro s hc ht
  have waited := tick_waitAge_eq (spendTurn s)
  calc step s
    _ = .next (tick (spendTurn s)) := step_of_turn hc ht
    _ = .next { tick (spendTurn s) with waitAge := (tick (spendTurn s)).waitAge } := rfl
    _ = _ := by rw [waited]; rfl

end Sys2Proof.Machine
end

section
/-!
The power-on state (70_reset_and_hazards.md R132): with the link in DISC the block drops data and sends none, and a legal
TXQ has room for the first payload.
-/
namespace Sys2Proof.Machine

/-- R7: a legal transmit queue holds at least one payload. -/
theorem txqDepth_pos_of_legal {c : Config} (h : c.legal = true) : 1 ≤ c.txqDepth := by
  simp only [Config.legal, Bool.and_eq_true, decide_eq_true_eq] at h
  omega

/-- R94: the SUBMIT step of a payload that fits in a frame is enabled where TXQ has room. -/
theorem submit_of_room {s : State} {p : Bytes} (fits : p.length ≤ maxPayload)
    (room : s.txq.length ≠ s.cfg.txqDepth) : submit p s = enqueuePayload p s := by
  rcases submit_cases p s with ⟨long, _⟩ | ⟨_, full, _⟩ | ⟨_, _, queued⟩
  · exact absurd fits (Nat.not_le.mpr long)
  · exact absurd full room
  · exact queued

/-- R94 at power-on: TXQ is empty and its capacity is at least 1. -/
theorem submit_powerOn {c : Config} (hc : c.legal = true) {p : Bytes} (fits : p.length ≤ maxPayload) :
    submit p (State.powerOn c) = enqueuePayload p (State.powerOn c) :=
  submit_of_room fits (Nat.ne_of_lt (txqDepth_pos_of_legal hc))

/-- Settles O50: the link is DISC, where DATA and ACK are dropped and R99 has no action, with or without a payload
in TXQ. -/
theorem powerOnStateWaitsForAReset : Obligations.PowerOnStateWaitsForAReset := by
  intro c hc
  have disc : (State.powerOn c).link ≠ .est := nofun
  refine ⟨rfl, rfl, rfl, rfl, rfl, rfl, rfl, rfl, rfl, rfl, rfl, rfl, rfl, rfl, rfl, ?notEnabled,
    fun q p => ⟨?data, ?ack⟩, fun q p => ?resetReq, fun p fits => ?submit⟩
  case notEnabled => exact txAction_of_disc rfl rfl rfl
  case data => exact (dataIsSortedThreeWays _ q p).1 disc
  case ack => exact (ackRetiresUpToItsNumber _ q p).2 disc
  case resetReq => exact ⟨_, resetReqClearsBothDirections _ q p, rfl⟩
  case submit =>
    rw [submit_powerOn hc fits]
    exact ⟨rfl, txAction_of_disc rfl rfl rfl⟩

end Sys2Proof.Machine
end

section
/-!
The codec's round trips (40_codec.md) and the opcode map (30_encoding.md R61): a frame is its command, sequence field and
payload, and a header byte is its two fields.
-/
namespace Sys2Proof

/-! ### Encoding, then decoding -/

/-- R61: a frame is rebuilt from its row's command and its own fields. -/
theorem ofFields_self (i : Instr) : Instr.ofFields i.cmd i.seq i.payload = i := by
  cases i <;> rfl

/-- R70 undoes R69's header, whatever follows it. -/
theorem decode_headerByte (i : Instr) : decode (headerByte i.cmd i.seq :: i.payload) = .ok i := by
  rw [decode_cons, headerCmd_headerByte, headerSeq_headerByte, ofFields_self]

theorem encode_of_le {i : Instr} (h : i.payload.length ≤ maxPayload) :
    encode i = .ok (headerByte i.cmd i.seq :: i.payload) :=
  encodeFrame_of_le i.cmd i.seq h

theorem encode_of_gt {i : Instr} (h : maxPayload < i.payload.length) :
    encode i = .error (.oversizeFrame i.payload.length) :=
  encodeFrame_of_gt i.cmd i.seq h

/-- Settles O4: `decode_headerByte` for a payload that fits; the frame has one byte more than its payload. -/
theorem encodedFrameDecodesToItself : Obligations.EncodedFrameDecodesToItself := by
  intro i
  refine ⟨fun wf => ?fits, fun ill => ?long⟩
  case fits =>
    have fits : i.payload.length ≤ maxPayload := (wellFormed_iff i).mp wf
    exact ⟨_, encode_of_le fits, Nat.succ_le_succ fits, decode_headerByte i⟩
  case long =>
    have long : ¬ i.payload.length ≤ maxPayload := fun fits => by simp [(wellFormed_iff i).mpr fits] at ill
    exact encode_of_gt (Nat.lt_of_not_le long)

/-! ### Decoding, then encoding -/

/-- Settles O5: the decoded frame's fields are the header's, and a header byte is its fields. -/
theorem decodedFrameEncodesToItself : Obligations.DecodedFrameEncodesToItself := by
  intro b nonempty fits
  cases b with
  | nil => cases nonempty
  | cons h p =>
    have short : p.length ≤ maxPayload := Nat.le_of_succ_le_succ fits
    refine ⟨_, decode_cons h p, (wellFormed_iff _).mpr (by rwa [ofFields_payload]), ?_⟩
    rw [encode, ofFields_cmd, ofFields_seq, ofFields_payload, encodeFrame_of_le _ _ short, headerByte_fields]

/-! ### The opcode map -/

/-- R61: the mask keeps the command field. -/
theorem and_mask_eq (h : Byte) : h &&& 0x07 = (headerCmd h).setWidth 8 := by
  apply BitVec.eq_of_toNat_eq
  have small : h.toNat % 8 % 2 ^ 8 = h.toNat % 8 := Nat.mod_eq_of_lt (by omega)
  rw [BitVec.toNat_and, BitVec.toNat_setWidth, headerCmd_toNat, small]
  exact Nat.and_two_pow_sub_one_eq_mod h.toNat 3

/-- R61: each row tests the command field alone, against its own command. -/
theorem opcodeMap_row_bits : ∀ row ∈ opcodeMap, row.mask = 0x07 ∧ row.matchBits = row.cmd.setWidth 8 := by
  decide

theorem opcodeMap_row_of_cmd : ∀ c : Cmd, ∃ row ∈ opcodeMap, row.cmd = c := by decide

theorem opcodeMap_row_unique : ∀ row ∈ opcodeMap, ∀ other ∈ opcodeMap, other.cmd = row.cmd → other = row := by
  decide

theorem setWidth_cmd_inj {c d : Cmd} : c.setWidth 8 = d.setWidth 8 ↔ c = d := by
  revert c d; decide

theorem OpcodeRow.hits_iff {row : OpcodeRow} (hm : row ∈ opcodeMap) (h : Byte) :
    row.hits h = true ↔ row.cmd = headerCmd h := by
  obtain ⟨hmask, hmatch⟩ := opcodeMap_row_bits row hm
  rw [OpcodeRow.hits, hmask, hmatch, and_mask_eq, beq_iff_eq, setWidth_cmd_inj, eq_comm]

/-- Settles O3: the row of the header's command field is hit, and any row hit has that command. -/
theorem everyHeaderMatchesOneRow : Obligations.EveryHeaderMatchesOneRow := by
  refine ⟨decode_nil, fun h => ?_⟩
  obtain ⟨row, hm, hc⟩ := opcodeMap_row_of_cmd (headerCmd h)
  refine ⟨row, hm, (OpcodeRow.hits_iff hm h).mpr hc, fun other ho hits => ?_, fun p => ?_⟩
  · exact opcodeMap_row_unique row hm other ho (((OpcodeRow.hits_iff ho h).mp hits).trans hc.symm)
  · exact ⟨_, decode_cons h p, by rw [ofFields_cmd, hc], ofFields_seq _ _ _, ofFields_payload _ _ _⟩

/-- Settles O6: the eight frames evaluated. -/
theorem writtenOutWordsDecode : Obligations.WrittenOutWordsDecode :=
  ⟨rfl, rfl, rfl, rfl, rfl, rfl, rfl, rfl⟩

end Sys2Proof
end

section
/-!
The comparator's corners (41_seqnum.md): the half-range distance, and why retire's comparison cuts a window of at most 15
exactly.
-/
namespace Sys2Proof.Machine

theorem seqDiff_eq_zero_iff {a b : Seq} : seqDiff a b = 0 ↔ a = b :=
  sdiff5_eq_zero_iff_seqDiff.symm.trans sdiff5_eq_zero_iff

/-- R76 by the forward distance. -/
theorem seqLt_iff_far {a b : Seq} : seqLt a b = true ↔ 16 ≤ seqDiff a b := seqLt_iff.trans sdiff5_neg_iff

/-- R77 by the forward distance: `a` is after `b` only at distances 1 to 15. -/
theorem seqLe_eq_false_iff {a b : Seq} : seqLe a b = false ↔ 1 ≤ seqDiff a b ∧ seqDiff a b ≤ 15 := by
  rw [← sdiff5_pos_iff, ← Bool.not_eq_true, seqLe_iff, Int.not_le]

/-- The distance from the ACK `base - 1 + k` to the outstanding number `base + j`. -/
theorem seqDiff_window (base : Seq) {j k : Nat} (hj : j < 32) (hk : k < 32) :
    seqDiff (base + BitVec.ofNat 5 j) (base - 1 + BitVec.ofNat 5 k) = (j + 33 - k) % 32 := by
  have offset : base + BitVec.ofNat 5 j - (base - 1 + BitVec.ofNat 5 k)
      = BitVec.ofNat 5 j + 1 - BitVec.ofNat 5 k := by ring
  have small : j % 32 = j ∧ k % 32 = k := ⟨Nat.mod_eq_of_lt hj, Nat.mod_eq_of_lt hk⟩
  rw [seqDiff, offset, BitVec.toNat_sub, BitVec.toNat_add, BitVec.toNat_ofNat, BitVec.toNat_ofNat]
  have one : (1 : Seq).toNat = 1 := rfl
  simp only [Nat.reducePow, small, one]
  omega

/-- 41_seqnum.md, "Why the window is at most 15": below 16 no distance reaches the half range. -/
theorem seqLe_window (base : Seq) {j k : Nat} (hj : j < 15) (hk : k ≤ 15) :
    seqLe (base + BitVec.ofNat 5 j) (base - 1 + BitVec.ofNat 5 k) = decide (j < k) := by
  have distance := seqDiff_window base (j := j) (k := k) (by omega) (by omega)
  by_cases retired : j < k
  · rw [decide_eq_true retired, ← Bool.not_eq_false, seqLe_eq_false_iff]
    omega
  · rw [decide_eq_false retired, seqLe_eq_false_iff]
    omega

/-- Settles O8: the sides of the comparison by the two distances, which go once round the circle. -/
theorem windowOfFifteenIsCutRightly : Obligations.WindowOfFifteenIsCutRightly := by
  refine ⟨fun a b half => ?half, fun a b off => ?split, fun w base j k hw hj hk => ?window, fun base => ?sixteen⟩
  case half =>
    have circle := seqDiff_add_seqDiff_swap (a := b) (b := a) (by omega)
    rw [seqLt_iff_far, seqLt_iff_far]
    omega
  case split =>
    rcases Nat.eq_zero_or_pos (seqDiff a b) with same | apart
    · obtain rfl := seqDiff_eq_zero_iff.mp same
      exact .inr (.inl (by simp [seqLt]))
    · have circle := seqDiff_add_seqDiff_swap (a := b) (b := a) apart
      have ne : a ≠ b := fun h => by rw [seqDiff_eq_zero_iff.mpr h] at apart; omega
      rcases Nat.lt_or_ge (seqDiff a b) 16 with near | far
      · exact .inr (.inr ⟨by rw [← Bool.not_eq_true, seqLt_iff_far]; omega, ne, seqLt_iff_far.mpr (by omega)⟩)
      · exact .inl ⟨seqLt_iff_far.mpr far, ne, by rw [← Bool.not_eq_true, seqLt_iff_far]; omega⟩
  case window => exact seqLe_window base (by omega) (by omega)
  case sixteen =>
    have distance := seqDiff_window base (j := 15) (k := 0) (by omega) (by omega)
    have ack : base - 1 + BitVec.ofNat 5 0 = base - 1 := BitVec.add_zero _
    rw [ack] at distance
    rw [← Bool.not_eq_false, seqLe_eq_false_iff]
    omega

end Sys2Proof.Machine
end

section
/-!
The invariant of reachable states (10_state.md section 8): each of its parts holds at power-on and is kept by every step. One
lemma per part for the TX step and one for the whole step, each a case split over the step's outcomes in which only the
cases that write the part's elements say anything.
-/
namespace Sys2Proof.Machine

/-! ### The queues (R17, R23, R27) -/

theorem QueuesBounded.enqueue {s : State} {p : Bytes} (h : QueuesBounded s) (fits : p.length ≤ maxPayload)
    (room : s.txq.length ≠ s.cfg.txqDepth) : QueuesBounded (enqueuePayload p s) := by
  obtain ⟨rxLen, rxItems, txLen, txItems, waitItems⟩ := h
  refine ⟨rxLen, rxItems, ?_, ?_, waitItems⟩
  · have longer : (s.txq ++ [p]).length = s.txq.length + 1 := by simp
    simp only [enqueuePayload_txq, enqueuePayload_cfg, longer]
    omega
  · simp only [enqueuePayload_txq, List.mem_append, List.mem_singleton]
    rintro x (hx | rfl)
    · exact txItems x hx
    · exact fits

theorem QueuesBounded.popped {s : State} {b : Bytes} {rest : List Bytes} (h : QueuesBounded s)
    (hq : s.rxq = b :: rest) : QueuesBounded (popped s rest) := by
  obtain ⟨rxLen, rxItems, txLen, txItems, waitItems⟩ := h
  rw [hq] at rxLen rxItems
  exact ⟨Nat.le_of_succ_le rxLen, fun x hx => rxItems x (.tail b hx), txLen, txItems, waitItems⟩

theorem TxOutcome.keeps_queues {r : DriverReply} {s t : State} (h : TxOutcome r s t) (hq : QueuesBounded s) :
    QueuesBounded t := by
  obtain ⟨rxLen, rxItems, txLen, txItems, waitItems⟩ := hq
  cases h with
  | newData p rest l _ _ _ _ _ _ queued =>
    rw [queued] at txLen txItems
    exact ⟨rxLen, rxItems, Nat.le_of_succ_le txLen, fun x hx => txItems x (.tail p hx), waitItems⟩
  | _ => exact ⟨rxLen, rxItems, txLen, txItems, waitItems⟩

theorem StepOutcome.keeps_queues {s t : State} (h : StepOutcome s t) (hq : QueuesBounded s) : QueuesBounded t := by
  obtain ⟨rxLen, rxItems, txLen, txItems, waitItems⟩ := id hq
  cases h with
  | tx r t _ hx => exact hx.keeps_queues hq
  | submitBlocked p _ fits =>
    refine ⟨rxLen, rxItems, txLen, txItems, ?_⟩
    simp only [List.mem_append, List.mem_singleton]
    rintro x (hx | rfl)
    · exact waitItems x hx
    · exact fits
  | submitQueued p _ fits room => exact QueuesBounded.enqueue (s := spendTurn s) hq fits room
  | resumeQueued i p _ waits room =>
    have fits : p.length ≤ maxPayload := waitItems p (List.mem_of_getElem? waits)
    obtain ⟨hrx, hrxi, htx, htxi, _⟩ := QueuesBounded.enqueue (s := spendTurn s) hq fits room
    exact ⟨hrx, hrxi, htx, htxi, fun x hx => waitItems x (List.mem_of_mem_eraseIdx hx)⟩
  | frameQueued b _ fits room =>
    refine ⟨?_, ?_, txLen, txItems, waitItems⟩
    · have longer : (s.rxq ++ [b]).length = s.rxq.length + 1 := by simp
      simp only [spendTurn_cfg, longer]
      omega
    · simp only [List.mem_append, List.mem_singleton]
      rintro x (hx | rfl)
      · exact rxItems x hx
      · exact fits
  | initialized => exact ⟨Nat.zero_le _, nofun, Nat.zero_le _, nofun, waitItems⟩
  | rxMalformed _ _ queued | rxDropped _ _ _ _ queued | rxUnknown _ _ _ _ queued | rxInOrder _ _ _ _ queued
  | rxDuplicate _ _ _ _ _ queued | rxAck _ _ _ _ _ queued | rxResetReq _ _ _ _ _ queued
  | rxResetAckHeld _ _ _ _ _ queued | rxResetAck _ _ _ _ _ queued => exact hq.popped queued
  | _ => exact hq

/-! ### The outstanding frames (R28, R37) -/

theorem saturate_le (age timeout : Nat) : saturate age timeout ≤ timeout := Nat.min_le_right _ _

theorem AgesOnly.entriesBounded {s : State} {l m : List Entry} (h : AgesOnly l m)
    (hm : EntriesBounded { s with ofq := m }) : EntriesBounded { s with ofq := l } := by
  obtain ⟨window, fields⟩ := hm
  refine ⟨h.length_eq ▸ window, fun x hx => ?_⟩
  rcases h.2 x hx with old | ⟨e, he, rfl⟩
  · exact fields x old
  · obtain ⟨fits, below, _⟩ := fields e he
    exact ⟨fits, below, Nat.zero_le _⟩

theorem TxOutcome.keeps_entries {r : DriverReply} {s t : State} (h : TxOutcome r s t) (he : EntriesBounded s) :
    EntriesBounded t := by
  obtain ⟨window, fields⟩ := id he
  cases h with
  | retry h l a logs _ _ _ ages => exact ages.entriesBounded (s := s) he
  | retransmit pre post e l _ _ _ split _ _ below _ ages =>
    refine ages.entriesBounded (s := s) ⟨?_, ?_⟩
    · simpa [split] using window
    · simp only [split, List.mem_append, List.mem_cons] at fields ⊢
      rintro x (hx | rfl | hx)
      · exact fields x (.inl hx)
      · obtain ⟨fits, _, age⟩ := fields e (.inr (.inl rfl))
        exact ⟨fits, below, age⟩
      · exact fields x (.inr (.inr hx))
  | newData p rest l _ _ _ _ _ _ _ room fits ages =>
    refine ages.entriesBounded (s := s) ⟨?_, ?_⟩
    · simpa using room
    · simp only [List.mem_append, List.mem_singleton]
      rintro x (hx | rfl)
      · exact fields x hx
      · exact ⟨fits, Nat.zero_le _, Nat.zero_le _⟩
  | ceiling => exact ⟨Nat.zero_le _, nofun⟩
  | _ => exact he

theorem StepOutcome.keeps_entries {s t : State} (h : StepOutcome s t) (he : EntriesBounded s) :
    EntriesBounded t := by
  obtain ⟨window, fields⟩ := id he
  cases h with
  | tx r t _ hx => exact hx.keeps_entries he
  | ticked =>
    refine ⟨by simpa using window, ?_⟩
    simp only [tick_ofq, tick_cfg, spendTurn_ofq, spendTurn_cfg, List.mem_map]
    rintro _ ⟨e, hm, rfl⟩
    obtain ⟨fits, below, _⟩ := fields e hm
    exact ⟨fits, below, saturate_le _ _⟩
  | rxAck =>
    exact ⟨(List.length_filter_le _ _).trans window, fun e hm => fields e (List.mem_of_mem_filter hm)⟩
  | initialized | rxResetReq => exact ⟨Nat.zero_le _, nofun⟩
  | _ => exact he

/-! ### The timers and the retry count (R20, R21, R31) -/

theorem TxOutcome.keeps_timers {r : DriverReply} {s t : State} (h : TxOutcome r s t) (ht : TimersBounded s) :
    TimersBounded t := by
  obtain ⟨age, retry, wait⟩ := ht
  cases h with
  | idle => exact ⟨age, retry, wait⟩
  | retry h l a logs _ _ _ _ restarted =>
    refine ⟨?_, retry, Nat.zero_le _⟩
    rcases restarted with rfl | rfl
    · exact age
    · exact Nat.zero_le _
  | resetRetry _ _ _ _ below => exact ⟨age, below, wait⟩
  | giveUp => exact ⟨Nat.zero_le _, Nat.zero_le _, wait⟩
  | resetReq => exact ⟨Nat.zero_le _, retry, Nat.zero_le _⟩
  | ceiling => exact ⟨Nat.zero_le _, Nat.zero_le _, Nat.zero_le _⟩
  | _ => exact ⟨age, retry, Nat.zero_le _⟩

theorem StepOutcome.keeps_timers {s t : State} (h : StepOutcome s t) (ht : TimersBounded s) : TimersBounded t := by
  obtain ⟨age, retry, wait⟩ := id ht
  cases h with
  | tx r t _ hx => exact hx.keeps_timers ht
  | ticked =>
    refine ⟨?_, retry, ?_⟩
    · rw [tick_resetAge]
      split
      · exact saturate_le _ _
      · exact age
    · rw [tick_waitAge]
      split
      · exact saturate_le _ _
      · exact wait
  | initialized | rxResetReq | rxResetAckHeld => exact ⟨Nat.zero_le _, Nat.zero_le _, Nat.zero_le _⟩
  | rxResetAck => exact ⟨Nat.zero_le _, Nat.zero_le _, wait⟩
  | _ => exact ht

/-! ### The held frame (R30, R31, R32) -/

theorem heldFrameSound_control {k : Cmd} (q : Seq) (hk : k.toNat ≤ 3) : HeldFrameSound ⟨[headerByte k q], k, q⟩ :=
  ⟨rfl, Nat.le_add_left 1 255, hk, fun _ => rfl⟩

theorem heldFrameSound_data (q : Seq) {p : Bytes} (fits : p.length ≤ maxPayload) :
    HeldFrameSound ⟨headerByte cmdData q :: p, cmdData, q⟩ :=
  ⟨rfl, Nat.succ_le_succ fits, Nat.zero_le 3, fun h => absurd rfl h⟩

theorem holdSound_of_free {s : State} (free : s.hold = none) (wait : s.waitAge = 0) (ready : s.readySeen = false) :
    HoldSound s :=
  ⟨by simp [free], fun _ => ⟨wait, ready⟩⟩

/-- An attempt with nothing held before it holds nothing or the frame just tried. -/
theorem holdSound_attempted {s : State} {f : Bytes} {k : Cmd} {q : Seq} (r : DriverReply) (free : s.hold = none)
    (sound : HeldFrameSound ⟨f, k, q⟩) : HoldSound (attempted f k q r s) := by
  cases r with
  | ok => exact holdSound_of_free free rfl rfl
  | busy => exact ⟨by simpa [heldAfter] using sound, fun _ => ⟨rfl, rfl⟩⟩

theorem TxOutcome.keeps_hold {r : DriverReply} {s t : State} (h : TxOutcome r s t) (hh : HoldSound s) :
    HoldSound t := by
  cases h with
  | retry h l a logs =>
    refine ⟨?_, fun _ => ⟨rfl, rfl⟩⟩
    cases r with
    | ok => simp
    | busy => exact hh.1
  | resetAck _ free =>
    exact holdSound_attempted (s := { s with rstAckPending := false }) r free (heldFrameSound_control 0 (by decide))
  | resetReq _ free =>
    exact holdSound_attempted (s := { s with reqPending := false, resetAge := 0 }) r free
      (heldFrameSound_control 0 (by decide))
  | ack _ free =>
    exact holdSound_attempted (s := { s with ackPending := false }) r free (heldFrameSound_control _ (by decide))
  | retransmit pre post e l _ free _ _ _ _ _ fits => exact holdSound_attempted r free (heldFrameSound_data e.seq fits)
  | newData p rest l _ free _ _ _ _ _ _ fits => exact holdSound_attempted r free (heldFrameSound_data s.nextTxSeq fits)
  | ceiling => exact holdSound_of_free rfl rfl rfl
  | _ => exact hh

theorem StepOutcome.keeps_hold {s t : State} (h : StepOutcome s t) (hh : HoldSound s) : HoldSound t := by
  obtain ⟨sound, quiet⟩ := id hh
  cases h with
  | tx r t _ hx => exact hx.keeps_hold hh
  | readyLatched _ held => exact ⟨sound, fun free => absurd free held⟩
  | ticked =>
    refine ⟨sound, fun free => ?_⟩
    rw [tick_waitAge_of_free (s := spendTurn s) free]
    exact quiet free
  | initialized | rxResetReq | rxResetAckHeld => exact holdSound_of_free rfl rfl rfl
  | _ => exact hh

/-! ### The cursors (R36) -/

theorem TxOutcome.keeps_ackState {r : DriverReply} {s t : State} (h : TxOutcome r s t) (ha : AckStateAgrees s) :
    AckStateAgrees t := by
  cases h with
  | ceiling => rfl
  | _ => exact ha

theorem StepOutcome.keeps_ackState {s t : State} (h : StepOutcome s t) (ha : AckStateAgrees s) :
    AckStateAgrees t := by
  cases h with
  | tx r t _ hx => exact hx.keeps_ackState ha
  | rxInOrder b rest p => exact (add_sub_cancel_right s.rxCursor 1).symm
  | initialized | rxResetReq => rfl
  | _ => exact ha

/-! ### Idle outside EST, and no handshake outside AWAIT (R38, R112) -/

theorem AgesOnly.eq_nil {l : List Entry} (h : AgesOnly l []) : l = [] :=
  List.length_eq_zero_iff.mp h.length_eq

theorem TxOutcome.keeps_idle {r : DriverReply} {s t : State} (h : TxOutcome r s t) (hi : IdleOutsideEst s) :
    IdleOutsideEst t := by
  cases h with
  | retry h l a logs _ _ _ ages =>
    intro ne
    obtain ⟨none, noAck, noRstAck, held, cursor, next⟩ := hi ne
    refine ⟨(none ▸ ages).eq_nil, noAck, noRstAck, ?_, cursor, next⟩
    cases r with
    | ok => simp
    | busy => exact held
  | resetAck _ _ due => exact fun ne => by simp [(hi ne).2.2.1] at due
  | resetReq _ free noRstAck hl =>
    intro ne
    obtain ⟨none, noAck, _, _, cursor, next⟩ := hi ne
    refine ⟨none, noAck, noRstAck, ?_, cursor, next⟩
    cases r <;> simp [heldAfter, free]
  | giveUp _ free noRstAck hl =>
    obtain ⟨none, noAck, _, _, cursor, next⟩ := hi (by simp [hl])
    exact fun _ => ⟨none, noAck, noRstAck, by simp [free], cursor, next⟩
  | ceiling => exact fun _ => ⟨rfl, rfl, rfl, nofun, rfl, rfl⟩
  | ack _ _ hl | retransmit _ _ _ _ _ _ hl | newData _ _ _ _ _ _ hl => exact fun ne => absurd hl ne
  | _ => exact hi

theorem StepOutcome.keeps_idle {s t : State} (h : StepOutcome s t) (hi : IdleOutsideEst s) : IdleOutsideEst t := by
  cases h with
  | tx r t _ hx => exact hx.keeps_idle hi
  | ticked =>
    intro ne
    obtain ⟨none, noAck, noRstAck, held, cursor, next⟩ := hi ne
    exact ⟨by simp [none], noAck, noRstAck, held, cursor, next⟩
  | initialized => exact fun _ => ⟨rfl, rfl, rfl, nofun, rfl, rfl⟩
  | rxInOrder _ _ _ _ _ _ hl | rxDuplicate _ _ _ _ _ _ _ hl | rxAck _ _ _ _ _ _ _ hl => exact fun ne => absurd hl ne
  | rxResetReq | rxResetAckHeld | rxResetAck => exact fun ne => absurd rfl ne
  | _ => exact hi

theorem noHandshake_attempted {s : State} {f : Bytes} {k : Cmd} {q : Seq} (r : DriverReply) (free : s.hold = none)
    (other : k ≠ cmdResetReq) (hn : NoHandshakeOutsideAwait s) : NoHandshakeOutsideAwait (attempted f k q r s) := by
  intro ne
  obtain ⟨noReq, age, retry, _⟩ := hn ne
  refine ⟨noReq, age, retry, ?_⟩
  cases r with
  | ok => simp [heldAfter, free]
  | busy => simpa [heldAfter] using other

theorem TxOutcome.keeps_noHandshake {r : DriverReply} {s t : State} (h : TxOutcome r s t)
    (hn : NoHandshakeOutsideAwait s) : NoHandshakeOutsideAwait t := by
  cases h with
  | idle => exact hn
  | retry h l a logs _ _ _ _ restarted =>
    intro ne
    obtain ⟨noReq, age, retry, held⟩ := hn ne
    refine ⟨noReq, ?_, retry, ?_⟩
    · rcases restarted with rfl | rfl
      · exact age
      · rfl
    · cases r with
      | ok => simp
      | busy => exact held
  | resetAck _ free => exact noHandshake_attempted (s := { s with rstAckPending := false }) r free (by decide) hn
  | ack _ free => exact noHandshake_attempted (s := { s with ackPending := false }) r free (by decide) hn
  | retransmit pre post e l _ free => exact noHandshake_attempted (s := s) r free (by decide) hn
  | newData p rest l _ free => exact noHandshake_attempted (s := s) r free (by decide) hn
  | resetReq _ _ _ hl | resetRetry _ _ hl => exact fun ne => absurd hl ne
  | giveUp _ free _ _ noReq => exact fun _ => ⟨noReq, rfl, rfl, by simp [free]⟩
  | ceiling => exact fun ne => absurd rfl ne

theorem StepOutcome.keeps_noHandshake {s t : State} (h : StepOutcome s t) (hn : NoHandshakeOutsideAwait s) :
    NoHandshakeOutsideAwait t := by
  cases h with
  | tx r t _ hx => exact hx.keeps_noHandshake hn
  | ticked =>
    intro ne
    obtain ⟨noReq, age, retry, held⟩ := hn ne
    refine ⟨noReq, ?_, retry, held⟩
    rw [tick_resetAge, if_neg fun h => ne h.1]
    exact age
  | initialized => exact fun ne => absurd rfl ne
  | rxResetReq | rxResetAckHeld => exact fun _ => ⟨rfl, rfl, rfl, nofun⟩
  | rxResetAck b rest q p _ _ _ _ other =>
    refine fun _ => ⟨rfl, rfl, rfl, fun h hm request => ?_⟩
    have held : s.hold = some h := Option.mem_toList.mp hm
    rw [(holdsResetReq_iff s).mpr ⟨h, held, request⟩] at other
    cases other
  | _ => exact hn

/-! ### The whole invariant -/

/-- Settles O52: part by part over the step's outcomes; no step writes the configuration. -/
theorem everyStepKeepsTheInvariant : Obligations.EveryStepKeepsTheInvariant := by
  rintro s t ⟨legal, queues, entries, timers, hold, acks, idle, noHandshake⟩ h
  have out := step_outcome h
  obtain ⟨_, _, sameCfg⟩ := step_spends h
  exact ⟨sameCfg ▸ legal, out.keeps_queues queues, out.keeps_entries entries, out.keeps_timers timers,
    out.keeps_hold hold, out.keeps_ackState acks, out.keeps_idle idle, out.keeps_noHandshake noHandshake⟩

/-- At power-on every queue is empty, every count is 0 and nothing is held. -/
theorem inv_powerOn {c : Config} (hc : c.legal = true) : Inv (State.powerOn c) :=
  ⟨hc, ⟨Nat.zero_le _, nofun, Nat.zero_le _, nofun, nofun⟩, ⟨Nat.zero_le _, nofun⟩,
    ⟨Nat.zero_le _, Nat.zero_le _, Nat.zero_le _⟩, holdSound_of_free rfl rfl rfl, rfl,
    fun _ => ⟨rfl, rfl, rfl, nofun, rfl, rfl⟩, fun _ => ⟨rfl, rfl, rfl, nofun⟩⟩

/-- R7: the reference values are legal whatever the OPEN timeouts are, each being at least 1. -/
theorem legal_reference : Config.reference.legal = true := by
  simp [Config.legal, Config.reference]

/-- Settles O51: with nothing outstanding the numbering says nothing. -/
theorem invariantHoldsAtReset : Obligations.InvariantHoldsAtReset :=
  ⟨rfl, inv_powerOn legal_reference, rfl, fun _ hc => ⟨inv_powerOn hc, rfl⟩⟩

/-- Settles O43: from DISC only RESET_REQ leads to EST and clears the numbers; from AWAIT RESET_ACK does too, where the
invariant has kept them cleared. -/
theorem establishedStartsAtSequenceZero : Obligations.EstablishedStartsAtSequenceZero := by
  rintro s t ⟨_, _, _, _, _, acks, idle, _⟩ h ne est
  obtain ⟨none, _, _, _, cursor, next⟩ := idle ne
  have last : s.lastDeliveredSeq = 31 := by rw [acks, cursor]; rfl
  cases step_outcome h with
  | initialized => cases est
  | rxResetReq => exact ⟨rfl, rfl, rfl, rfl⟩
  | rxResetAckHeld | rxResetAck => exact ⟨next, cursor, last, none⟩
  | tx r t _ hx =>
    cases hx with
    | giveUp | ceiling => cases est
    | _ => exact absurd est ne
  | _ => exact absurd est ne

end Sys2Proof.Machine
end

section
/-!
The numbering of the outstanding frames (10_state.md R37): kept by every step whose ACK, if it takes one, lies in the window
(41_seqnum.md R80), and broken by an ACK that does not.
-/
namespace Sys2Proof.Machine

/-- R37 of a list of entries: consecutive numbers that end just before `q`. -/
def NumberedTo (q : Seq) (l : List Entry) : Prop :=
  l.map (fun e => e.seq) = (List.range l.length).map fun i => q - BitVec.ofNat 5 (l.length - i)

theorem ofqNumbered_iff (s : State) : OfqNumbered s ↔ NumberedTo s.nextTxSeq s.ofq := Iff.rfl

theorem numberedTo_nil (q : Seq) : NumberedTo q [] := rfl

/-- Only the numbers matter. -/
theorem NumberedTo.congr {q : Seq} {l m : List Entry} (h : NumberedTo q m)
    (same : l.map (fun e => e.seq) = m.map fun e => e.seq) : NumberedTo q l := by
  have len : l.length = m.length := by simpa using congrArg List.length same
  rw [NumberedTo, same, len]
  exact h

/-- R37 from the oldest entry on: its number is as far from `q` as the list is long. -/
theorem numberedTo_cons {q : Seq} {e : Entry} {l : List Entry} :
    NumberedTo q (e :: l) ↔ e.seq = q - BitVec.ofNat 5 (l.length + 1) ∧ NumberedTo q l := by
  simp [NumberedTo, List.range_succ_eq_map, Function.comp_def]

theorem NumberedTo.of_suffix {q : Seq} {l m : List Entry} (h : NumberedTo q m) (hs : l <:+ m) : NumberedTo q l := by
  induction m with
  | nil =>
    obtain rfl := List.suffix_nil.mp hs
    exact h
  | cons e es ih =>
    rcases List.suffix_cons_iff.mp hs with rfl | tail
    · exact h
    · exact ih (numberedTo_cons.mp h).2 tail

/-- R104: the next number joins at the end. -/
theorem NumberedTo.snoc {q : Seq} {l : List Entry} {e : Entry} (h : NumberedTo q l) (he : e.seq = q) :
    NumberedTo (q + 1) (l ++ [e]) := by
  induction l with
  | nil => exact numberedTo_cons.mpr ⟨by rw [he]; exact (add_sub_cancel_right q 1).symm, numberedTo_nil _⟩
  | cons x xs ih =>
    obtain ⟨hx, hxs⟩ := numberedTo_cons.mp h
    refine numberedTo_cons.mpr ⟨?_, ih hxs⟩
    have longer : BitVec.ofNat 5 ((xs ++ [e]).length + 1) = BitVec.ofNat 5 (xs.length + 1) + 1 := by
      rw [List.length_append, List.length_singleton]
      exact BitVec.ofNat_add _ 1
    calc x.seq
      _ = q + 1 - (BitVec.ofNat 5 (xs.length + 1) + 1) := by rw [hx]; ring
      _ = q + 1 - BitVec.ofNat 5 ((xs ++ [e]).length + 1) := by rw [longer]

/-! ### Retire (R105) cuts a numbered list at the front -/

/-- Next to each other in the list is next to each other in number. -/
theorem NumberedTo.second_seq {q : Seq} {e x : Entry} {l : List Entry} (h : NumberedTo q (e :: x :: l)) :
    x.seq = e.seq + 1 := by
  obtain ⟨he, hx⟩ := numberedTo_cons.mp h
  have longer : BitVec.ofNat 5 ((x :: l).length + 1) = BitVec.ofNat 5 (l.length + 1) + 1 := BitVec.ofNat_add _ 1
  rw [(numberedTo_cons.mp hx).1, he, longer]
  ring

/-- Every entry lies at its place after the oldest number. -/
theorem NumberedTo.seq_of_mem_tail {q : Seq} {e : Entry} {l : List Entry} (h : NumberedTo q (e :: l)) :
    ∀ x ∈ l, ∃ j < l.length, x.seq = e.seq + BitVec.ofNat 5 (j + 1) := by
  induction l generalizing e with
  | nil => nofun
  | cons y ys ih =>
    intro x hx
    have next : y.seq = e.seq + 1 := h.second_seq
    rcases List.mem_cons.mp hx with rfl | hx
    · exact ⟨0, Nat.succ_pos _, next⟩
    · obtain ⟨j, hj, place⟩ := ih (numberedTo_cons.mp h).2 x hx
      refine ⟨j + 1, Nat.succ_lt_succ hj, ?_⟩
      have farther : BitVec.ofNat 5 (j + 1 + 1) = BitVec.ofNat 5 (j + 1) + 1 := BitVec.ofNat_add _ 1
      rw [place, next, farther]
      ring

/-- R105 with an ACK `k` past the number before the oldest: what stays is an end part of the list. -/
theorem NumberedTo.retire_suffix {q a : Seq} {l : List Entry} (h : NumberedTo q l) (len : l.length ≤ 15)
    (legit : ∀ e ∈ l.head?, ∃ k ≤ 15, a = e.seq - 1 + BitVec.ofNat 5 k) :
    (l.filter fun e => !seqLe e.seq a) <:+ l := by
  induction l with
  | nil => exact List.suffix_refl _
  | cons e es ih =>
    obtain ⟨k, hk, rfl⟩ := legit e rfl
    have oldest : seqLe e.seq (e.seq - 1 + BitVec.ofNat 5 k) = decide (0 < k) := by
      simpa using seqLe_window e.seq (j := 0) (by omega) hk
    cases k with
    | zero =>
      have after : ∀ x ∈ es, seqLe x.seq (e.seq - 1 + BitVec.ofNat 5 0) = false := by
        intro x hx
        obtain ⟨j, hj, place⟩ := h.seq_of_mem_tail x hx
        rw [List.length_cons] at len
        rw [place, seqLe_window e.seq (by omega) (by omega)]
        rfl
      have keepsAll : (e :: es).filter (fun x => !seqLe x.seq (e.seq - 1 + BitVec.ofNat 5 0)) = e :: es := by
        refine List.filter_eq_self.mpr fun x hx => ?_
        rcases List.mem_cons.mp hx with rfl | hx
        · rw [oldest]; rfl
        · rw [after x hx]; rfl
      rw [keepsAll]
    | succ k =>
      rw [List.filter_cons_of_neg (by rw [oldest]; simp)]
      refine (ih (numberedTo_cons.mp h).2 (Nat.le_of_succ_le len) fun x hx => ⟨k, by omega, ?_⟩).trans
        (List.suffix_cons e es)
      obtain ⟨rest, rfl⟩ := List.head?_eq_some_iff.mp hx
      have nearer : BitVec.ofNat 5 (k + 1) = BitVec.ofNat 5 k + 1 := BitVec.ofNat_add _ 1
      rw [h.second_seq, nearer]
      ring

/-- R80 as an offset: a legitimate ACK is at most `W` past the number before the oldest. -/
theorem LegitimateAck.eq_offset {a : Seq} {s : State} (h : LegitimateAck a s) :
    ∀ e ∈ s.ofq.head?, ∃ k ≤ s.cfg.w, a = e.seq - 1 + BitVec.ofNat 5 k := by
  intro e he
  refine ⟨seqDiff a (e.seq - 1), h e (Option.mem_toList.mpr he), ?_⟩
  have distance : BitVec.ofNat 5 (seqDiff a (e.seq - 1)) = a - (e.seq - 1) :=
    (BitVec.ofNat_toNat 5 _).trans (BitVec.setWidth_eq _)
  rw [distance]
  ring

theorem window_le_of_legal {c : Config} (h : c.legal = true) : c.w ≤ 15 := by
  simp only [Config.legal, Bool.and_eq_true, decide_eq_true_eq] at h
  omega

theorem NumberedTo.retire {a : Seq} {s : State} (legal : s.cfg.legal = true) (entries : EntriesBounded s)
    (h : NumberedTo s.nextTxSeq s.ofq) (legit : LegitimateAck a s) : NumberedTo s.nextTxSeq (retire a s).ofq := by
  have window := window_le_of_legal legal
  refine h.of_suffix (h.retire_suffix (entries.1.trans window) fun e he => ?_)
  obtain ⟨k, hk, ha⟩ := legit.eq_offset e he
  exact ⟨k, hk.trans window, ha⟩

/-! ### Every step -/

theorem TxOutcome.keeps_numbering {r : DriverReply} {s t : State} (h : TxOutcome r s t)
    (hn : NumberedTo s.nextTxSeq s.ofq) : NumberedTo t.nextTxSeq t.ofq := by
  cases h with
  | retry _ l _ _ _ _ _ ages => exact hn.congr ages.map_seq
  | retransmit pre post e l _ _ _ split _ _ _ _ ages =>
    refine hn.congr (ages.map_seq.trans ?_)
    rw [split]
    simp
  | newData p rest l _ _ _ _ _ _ _ _ _ ages => exact (hn.snoc rfl).congr ages.map_seq
  | ceiling => exact numberedTo_nil 0
  | _ => exact hn

/-- Settles O53: TICK and acceptance leave the numbers, new DATA adds the next one, a reset clears them, and a legitimate
ACK takes them off from the oldest on. -/
theorem legitimateStepsKeepTheNumbering : Obligations.LegitimateStepsKeepTheNumbering := by
  intro s t inv hn legit h
  obtain ⟨legal, _, entries, _⟩ := inv
  have numbered : NumberedTo s.nextTxSeq s.ofq := hn
  show NumberedTo t.nextTxSeq t.ofq
  cases step_outcome h with
  | tx r t _ hx => exact hx.keeps_numbering numbered
  | ticked => exact numbered.congr (by simp)
  | initialized | rxResetReq => exact numberedTo_nil 0
  | rxAck b rest a p ht hq hd hl =>
    exact NumberedTo.retire (s := popped s rest) legal entries numbered (legit a ⟨ht, hl, b, rest, p, hq, hd⟩)
  | _ => exact numbered

/-! ### An ACK outside the window -/

/-- In EST with the numbers 0 and 1 outstanding, and an ACK of 17 at the head of RXQ, next to be received. -/
def strayAckState : State :=
  { State.powerOn { Config.reference with w := 2, rtoTicks := 1, resetRtoTicks := 1, busyWaitTicks := 1 } with
    link := .est, ofq := [⟨0, [], 0, 0⟩, ⟨1, [], 0, 0⟩], nextTxSeq := 2, rxq := [[headerByte cmdAck 17]],
    script := [.rxs] }

/-- Settles O54: 17 is 16 past 1, so 1 is retired, and only 15 past 0 the other way round, so 0 stays; the newest
outstanding number is then no longer 1. -/
theorem illegitimateAckCanBreakTheNumbering : Obligations.IllegitimateAckCanBreakTheNumbering := by
  refine ⟨strayAckState, retire 17 (popped strayAckState []), 17, by decide, by decide,
    ⟨rfl, rfl, _, _, _, rfl, rfl⟩, by decide, rfl, by decide⟩

end Sys2Proof.Machine
end

section
/-!
Where a step stops (60_exceptions.md R121; logs 7 and 8): the one refusal is an illegal configuration's, and the one fault an
overlong payload's at a DATA attempt, which the invariant excludes.
-/
namespace Sys2Proof.Machine

/-! ### Encoding for a send (R96) -/

theorem sendEncoded_of_gt (c : Cmd) (q : Seq) {p : Bytes} (r : DriverReply) (s : State)
    (h : maxPayload < p.length) : sendEncoded c q p r s = .fault .oversizeFrame := by
  simp only [sendEncoded, encodeFrame_of_gt c q h]

theorem sendEncoded_next_or_fault (c : Cmd) (q : Seq) (p : Bytes) (r : DriverReply) (s : State) :
    (∃ t, sendEncoded c q p r s = .next t) ∨
      maxPayload < p.length ∧ sendEncoded c q p r s = .fault .oversizeFrame :=
  (Nat.lt_or_ge maxPayload p.length).symm.imp (fun fits => ⟨_, sendEncoded_of_le c q r s fits⟩)
    fun long => ⟨long, sendEncoded_of_gt c q r s long⟩

/-! ### Each agent's step -/

/-- Some payload, queued or outstanding, is too long for a frame. -/
def HasOverlongPayload (s : State) : Prop :=
  (∃ p ∈ s.txq, maxPayload < p.length) ∨ ∃ e ∈ s.ofq, maxPayload < e.payload.length

theorem not_hasOverlongPayload_of_inv {s : State} (inv : Inv s) : ¬ HasOverlongPayload s := by
  obtain ⟨_, ⟨_, _, _, queued, _⟩, ⟨_, outstanding⟩, _⟩ := inv
  rintro (⟨p, hp, long⟩ | ⟨e, he, long⟩)
  · exact absurd (queued p hp) (Nat.not_le.mpr long)
  · exact absurd (outstanding e he).1 (Nat.not_le.mpr long)

/-- R99: of the actions only the two DATA attempts can stop. -/
theorem takeAction_next_or_fault {a : TxAction} {s : State} (r : DriverReply) (h : Chosen s a) :
    (∃ t, takeAction a r s = .next t) ∨ HasOverlongPayload s ∧ takeAction a r s = .fault .oversizeFrame := by
  cases a with
  | holdRetry | resetTimeout => exact .inl ⟨_, rfl⟩
  | sendResetAck => exact .inl ⟨_, sendResetAck_eq r s⟩
  | sendResetReq => exact .inl ⟨_, sendResetReq_eq r s⟩
  | sendAck => exact .inl ⟨_, sendAck_eq r s⟩
  | expiry e =>
    obtain ⟨_, _, _, _, oldest⟩ := h
    show (∃ t, retxExpiry e r s = .next t) ∨ HasOverlongPayload s ∧ retxExpiry e r s = .fault .oversizeFrame
    rcases Nat.lt_or_ge e.retx s.cfg.maxRetx with below | ceiling
    · rw [retxExpiry_of_lt r below]
      exact (sendEncoded_next_or_fault _ _ _ _ _).imp_right fun ⟨long, stop⟩ =>
        ⟨.inr ⟨e, List.mem_of_find?_eq_some oldest, long⟩, stop⟩
    · exact .inl ⟨_, retxExpiry_of_ge r ceiling⟩
  | newData p rest =>
    obtain ⟨_, _, _, _, _, queued, _⟩ := h
    exact (sendEncoded_next_or_fault _ _ _ _ _).imp_right fun ⟨long, stop⟩ =>
      ⟨.inl ⟨p, by rw [queued]; exact List.mem_cons_self, long⟩, stop⟩

theorem txStep_next_or_fault (r : DriverReply) (s : State) :
    (∃ t, txStep r s = .next t) ∨ HasOverlongPayload s ∧ txStep r s = .fault .oversizeFrame := by
  cases ha : txAction s with
  | none => exact .inl ⟨s, by simp only [txStep, ha]⟩
  | some a =>
    rw [txStep_of_action ha]
    exact takeAction_next_or_fault r (txAction_chosen ha)

/-- R83: the frame popped has its row's meaning. -/
theorem rxStep_of_frame {s : State} {b : Bytes} {rest : List Bytes} {i : Instr} (hq : s.rxq = b :: rest)
    (hd : decode b = .ok i) : rxStep s = .next (received i { s with rxq := rest }) := by
  simp only [rxStep, hq, hd, exec_eq]

theorem rxStep_of_empty {s : State} (hq : s.rxq = []) : rxStep s = .next s := by
  simp only [rxStep, hq]

/-- R83, R84: whatever is at the head of RXQ has a next state. -/
theorem rxStep_total (s : State) : ∃ t, rxStep s = .next t := by
  cases hq : s.rxq with
  | nil => exact ⟨s, rxStep_of_empty hq⟩
  | cons b rest =>
    cases b with
    | nil => exact ⟨_, rxStep_of_empty_head hq⟩
    | cons h p => exact ⟨_, rxStep_of_frame hq (decode_cons h p)⟩

theorem takeTurn_next_or_fault (u : Turn) (s : State) :
    (∃ t, takeTurn u s = .next t) ∨ HasOverlongPayload s ∧ takeTurn u s = .fault .oversizeFrame := by
  cases u with
  | rxs => exact .inl (rxStep_total s)
  | txs r => exact txStep_next_or_fault r s
  | _ => exact .inl ⟨_, rfl⟩

/-! ### The step -/

theorem step_next_or_fault {s : State} (hc : s.cfg.legal = true) :
    (∃ t, step s = .next t) ∨ HasOverlongPayload s ∧ step s = .fault .oversizeFrame := by
  rw [step_of_legal hc]
  exact takeTurn_next_or_fault (nextTurn s) (spendTurn s)

theorem step_of_illegal {s : State} (hc : s.cfg.legal = false) : step s = .refused .illegalConfiguration := by
  simp [step, stepBody, hc]

/-- Settles O48: the invariant keeps every payload short enough to encode. -/
theorem noErrorStopsTheBlock : Obligations.NoErrorStopsTheBlock := by
  intro s inv
  rcases step_next_or_fault inv.1 with next | ⟨overlong, _⟩
  · exact next
  · exact absurd overlong (not_hasOverlongPayload_of_inv inv)

/-- Settles O49: under a legal configuration a step is a next state or the fault of an overlong payload. -/
theorem onlyIllegalStatesStop : Obligations.OnlyIllegalStatesStop := by
  refine ⟨fun s => step_of_illegal, fun s reason refused => ?refusal, fun s r p rest hc ht chosen long => ?newData,
    fun s r e hc ht chosen below long => ?retransmit, fun s f stops => ?fault⟩
  case refusal =>
    rw [← Bool.not_eq_true]
    intro hc
    rcases step_next_or_fault hc with ⟨t, next⟩ | ⟨_, fault⟩
    · cases next.symm.trans refused
    · cases fault.symm.trans refused
  case newData =>
    calc step s
      _ = sendNewData p rest r (spendTurn s) := step_of_txAction hc ht chosen
      _ = .fault .oversizeFrame := sendEncoded_of_gt _ _ _ _ long
  case retransmit =>
    calc step s
      _ = retxExpiry e r (spendTurn s) := step_of_txAction hc ht chosen
      _ = sendEncoded cmdData e.seq e.payload r (countRetx (spendTurn s)) := retxExpiry_of_lt r below
      _ = .fault .oversizeFrame := sendEncoded_of_gt _ _ _ _ long
  case fault =>
    cases hc : s.cfg.legal with
    | false => cases (step_of_illegal hc).symm.trans stops
    | true =>
      rcases step_next_or_fault hc with ⟨t, next⟩ | ⟨overlong, _⟩
      · cases next.symm.trans stops
      · exact overlong

end Sys2Proof.Machine
end

section
/-!
The frames put to the driver (30_encoding.md R58, R60): a frame that may be held, and so any frame attempted, decodes to one
of the four commands.
-/
namespace Sys2Proof.Machine

/-- R58, R60: the frame decodes to a well-formed frame of one of the four commands, header-only unless DATA. -/
def SendableFrame (f : Bytes) : Prop :=
  ∃ i : Instr, decode f = .ok i ∧ i.wellFormed = true ∧ i.cmd.toNat ≤ 3 ∧ (i.cmd ≠ cmdData → i.payload = [])

theorem HeldFrameSound.sendable {h : Held} (sound : HeldFrameSound h) : SendableFrame h.frame := by
  obtain ⟨header, fits, four, short⟩ := sound
  refine ⟨Instr.ofFields h.kind h.seq h.frame.tail, ?_, ?_, by rwa [ofFields_cmd], ?_⟩
  · rw [header, decode_cons, headerCmd_headerByte, headerSeq_headerByte, List.tail_cons]
  · rw [wellFormed_iff, ofFields_payload, List.length_tail]
    exact Nat.sub_le_of_le_add fits
  · rwa [ofFields_cmd, ofFields_payload]

/-- `t` has the events of `s` and then events whose attempts are all of frames the block may send. -/
def AppendsSendable (s t : State) : Prop :=
  ∃ es, t.trace = s.trace ++ es ∧ ∀ e ∈ es, ∀ f, e.wireFrame = some f → SendableFrame f

theorem AppendsNoAttempt.appendsSendable {s t : State} (h : AppendsNoAttempt s t) : AppendsSendable s t := by
  obtain ⟨es, happ, hnone⟩ := h
  exact ⟨es, happ, fun e he f hf => by rw [hnone e he] at hf; cases hf⟩

/-- One attempt, after events that are none. -/
theorem AppendsSendable.of_attempt {s t : State} {f : Bytes} {r : DriverReply} (logs : List Event)
    (h : t.trace = s.trace ++ (logs ++ [.wireTx f r])) (quiet : ∀ e ∈ logs, e.wireFrame = none)
    (hf : SendableFrame f) : AppendsSendable s t := by
  refine ⟨_, h, fun e he g hg => ?_⟩
  rcases List.mem_append.mp he with he | he
  · rw [quiet e he] at hg
    cases hg
  · obtain rfl := List.mem_singleton.mp he
    cases hg
    exact hf

theorem TxOutcome.appendsSendable {r : DriverReply} {s t : State} (h : TxOutcome r s t) (hh : HoldSound s) :
    AppendsSendable s t := by
  have quiet : ∀ e ∈ ([] : List Event), e.wireFrame = none := nofun
  cases h with
  | idle | resetRetry => exact ⟨[], (List.append_nil _).symm, nofun⟩
  | retry x l a logs _ held logged =>
    have sound : HeldFrameSound x := hh.1 x (by simp [held])
    refine .of_attempt logs rfl ?_ sound.sendable
    rcases logged with rfl | rfl
    · exact quiet
    · simp [Event.wireFrame]
  | giveUp => exact ⟨_, rfl, by simp [Event.wireFrame]⟩
  | ceiling => exact ⟨[.log .retxCeiling], rfl, by simp [Event.wireFrame]⟩
  | resetAck => exact .of_attempt [] rfl quiet (heldFrameSound_control (k := cmdResetAck) 0 (by decide)).sendable
  | resetReq => exact .of_attempt [] rfl quiet (heldFrameSound_control (k := cmdResetReq) 0 (by decide)).sendable
  | ack => exact .of_attempt [] rfl quiet (heldFrameSound_control (k := cmdAck) _ (by decide)).sendable
  | retransmit pre post e l _ _ _ _ _ _ _ fits =>
    exact .of_attempt [] rfl quiet (heldFrameSound_data e.seq fits).sendable
  | newData p rest l _ _ _ _ _ _ _ _ fits =>
    exact .of_attempt [] rfl quiet (heldFrameSound_data s.nextTxSeq fits).sendable

/-- R93: a step that is no TX step makes no attempt. -/
theorem StepOutcome.appendsSendable {s t : State} (h : StepOutcome s t) (hh : HoldSound s) : AppendsSendable s t := by
  cases h with
  | tx r t _ hx => exact hx.appendsSendable hh
  | submitRefused | rxMalformed | rxUnknown | rxInOrder =>
    exact AppendsNoAttempt.appendsSendable (.of_trace_append rfl rfl)
  | _ => exact AppendsNoAttempt.appendsSendable (.of_trace_eq rfl)

/-- Settles O58: an attempt is of the held frame, which the invariant keeps sound, or of one just encoded. -/
theorem onlyTheFourCommandsAreSent : Obligations.OnlyTheFourCommandsAreSent := by
  rintro s t ⟨_, _, _, _, hold, _⟩ h
  exact (step_outcome h).appendsSendable hold

end Sys2Proof.Machine
end

section
/-!
What one agent's step may do, over every step (20_memory.md): the receive sequencer's deliveries, what a held frame keeps
waiting, and how payloads and outstanding frames move.
-/
namespace Sys2Proof.Machine

/-! ### Deliveries (20_memory.md section 4) -/

/-- `t` has the events of `s` and then only events that are no delivery. -/
def AppendsNoDelivery (s t : State) : Prop :=
  ∃ es, t.trace = s.trace ++ es ∧ ∀ e ∈ es, e.delivered = none

theorem AppendsNoDelivery.of_trace_eq {s t : State} (h : t.trace = s.trace) : AppendsNoDelivery s t :=
  ⟨[], by rw [h, List.append_nil], nofun⟩

theorem AppendsNoDelivery.of_trace_append {s t : State} {es : List Event} (h : t.trace = s.trace ++ es)
    (hes : ∀ e ∈ es, e.delivered = none) : AppendsNoDelivery s t :=
  ⟨es, h, hes⟩

theorem delivered_of_logs {logs : List Event} (h : logs = [] ∨ logs = [.log .busyWaitTimeout]) :
    ∀ e ∈ logs, e.delivered = none := by
  rcases h with rfl | rfl <;> simp [Event.delivered]

/-- R47: a TX step delivers nothing, and moves the receive cursor only in the reset of the retry ceiling. -/
theorem TxOutcome.noDelivery {r : DriverReply} {s t : State} (h : TxOutcome r s t) :
    AppendsNoDelivery s t ∧ (t.rxCursor = s.rxCursor ∨ t.rxCursor = 0) := by
  cases h with
  | idle | resetRetry => exact ⟨.of_trace_eq rfl, .inl rfl⟩
  | retry x l a logs _ _ logged =>
    refine ⟨.of_trace_append rfl ?_, .inl rfl⟩
    intro e he
    rcases List.mem_append.mp he with he | he
    · exact delivered_of_logs logged e he
    · obtain rfl := List.mem_singleton.mp he
      rfl
  | giveUp => exact ⟨.of_trace_append rfl (by simp [Event.delivered]), .inl rfl⟩
  | ceiling => exact ⟨.of_trace_append (es := [.log .retxCeiling]) rfl (by simp [Event.delivered]), .inr rfl⟩
  | _ => exact ⟨.of_trace_append rfl (by simp [Event.delivered]), .inl rfl⟩

/-- R86: every step but that of an in-order DATA frame delivers nothing. -/
theorem StepOutcome.inOrder_or_noDelivery {s t : State} (h : StepOutcome s t) :
    (∃ b rest p, nextTurn s = .rxs ∧ s.rxq = b :: rest ∧ decode b = .ok (.data s.rxCursor p) ∧
      t = dataInOrder s.rxCursor p (popped s rest)) ∨
    AppendsNoDelivery s t ∧ (t.rxCursor = s.rxCursor ∨ t.rxCursor = 0) := by
  cases h with
  | tx r t _ hx => exact .inr hx.noDelivery
  | rxInOrder b rest p ht hq hd => exact .inl ⟨b, rest, p, ht, hq, hd, rfl⟩
  | submitRefused =>
    exact .inr ⟨.of_trace_append (es := [.rejectOversizeFrame]) rfl (by simp [Event.delivered]), .inl rfl⟩
  | rxMalformed =>
    exact .inr ⟨.of_trace_append (es := [.log .malformedFrame]) rfl (by simp [Event.delivered]), .inl rfl⟩
  | rxUnknown =>
    exact .inr ⟨.of_trace_append (es := [.log .unknownCmd]) rfl (by simp [Event.delivered]), .inl rfl⟩
  | initialized | rxResetReq => exact .inr ⟨.of_trace_eq rfl, .inr rfl⟩
  | _ => exact .inr ⟨.of_trace_eq rfl, .inl rfl⟩

/-- Settles O21: the in-order frame's step delivers its payload and moves the cursor; no other delivers. -/
theorem deliveryFollowsTheCursor : Obligations.DeliveryFollowsTheCursor := by
  intro s t h
  rcases (step_outcome h).inOrder_or_noDelivery with ⟨b, rest, p, ht, hq, hd, rfl⟩ | ⟨⟨es, happ, hnone⟩, cursor⟩
  · exact ⟨[.deliver p], rfl, .inl ⟨b, rest, p, ht, hq, hd, rfl, rfl, rfl⟩⟩
  · exact ⟨es, happ, .inr ⟨hnone, cursor⟩⟩

/-! ### A held frame (R98) -/

/-- A step of TXS's turn is a TX step. -/
theorem tx_outcome_of_turn {s t : State} {r : DriverReply} (h : step s = .next t) (ht : nextTurn s = .txs r) :
    TxOutcome r (spendTurn s) t := by
  obtain ⟨_, taken⟩ := step_next h
  rw [ht] at taken
  exact txStep_outcome taken

/-- R98: with a frame held, the TX step waits, or retries that frame and writes only ages, the wait and the hold. -/
theorem TxOutcome.of_held {r : DriverReply} {s t : State} {h : Held} (out : TxOutcome r s t)
    (held : s.hold = some h) :
    t = s ∨ ∃ l a logs, (logs = [] ∨ logs = [.log .busyWaitTimeout]) ∧ t = { s with
      ofq := l, resetAge := a, trace := s.trace ++ (logs ++ [.wireTx h.frame r]), waitAge := 0,
      readySeen := false, hold := if r = .ok then none else s.hold } := by
  cases out with
  | idle => exact .inl rfl
  | retry x l a logs _ held' logged =>
    cases held'.symm.trans held
    exact .inr ⟨l, a, logs, logged, rfl⟩
  | resetAck _ free | resetReq _ free | resetRetry _ free | giveUp _ free | ack _ free | retransmit _ _ _ _ _ free
  | ceiling _ _ free | newData _ _ _ _ free =>
    cases free.symm.trans held

/-- R98, R108, R112: the ways a held frame leaves. -/
theorem StepOutcome.hold_of_held {s t : State} {h : Held} (out : StepOutcome s t) (held : s.hold = some h) :
    t.hold = some h ∨ t.hold = none ∧
      ((nextTurn s = .txs .ok ∧ ∃ es, t.trace = s.trace ++ es ++ [.wireTx h.frame .ok]) ∨
        nextTurn s = .init ∨ TakesResetReq s ∨ (s.link = .await ∧ TakesResetAck s ∧ h.kind = cmdResetReq)) := by
  cases out with
  | tx r t ht hx =>
    rcases hx.of_held held with rfl | ⟨l, a, logs, _, rfl⟩
    · exact .inl held
    · cases r with
      | ok => exact .inr ⟨rfl, .inl ⟨ht, logs, (List.append_assoc ..).symm⟩⟩
      | busy => exact .inl held
  | initialized ht => exact .inr ⟨rfl, .inr (.inl ht)⟩
  | rxResetReq b rest q p ht hq hd => exact .inr ⟨rfl, .inr (.inr (.inl ⟨ht, b, rest, q, p, hq, hd⟩))⟩
  | rxResetAckHeld b rest q p ht hq hd hl request =>
    obtain ⟨x, held', kind⟩ := (holdsResetReq_iff s).mp request
    cases held'.symm.trans held
    exact .inr ⟨rfl, .inr (.inr (.inr ⟨hl, ⟨ht, b, rest, q, p, hq, hd⟩, kind⟩))⟩
  | _ => exact .inl held

/-- Settles O33: a TX step waits or retries the held frame, and the held frame leaves as `hold_of_held` says. -/
theorem nothingPassesAHeldFrame : Obligations.NothingPassesAHeldFrame := by
  refine fun s t h held step => ⟨fun r ht => ?_, (step_outcome step).hold_of_held held⟩
  rcases (tx_outcome_of_turn step ht).of_held held with rfl | ⟨l, a, logs, logged, rfl⟩
  · exact ⟨rfl, rfl, rfl, rfl, rfl, rfl, [], (List.append_nil _).symm, nofun⟩
  · refine ⟨rfl, rfl, rfl, rfl, rfl, rfl, _, rfl, ?_⟩
    rcases logged with rfl | rfl <;> simp [Event.wireFrame]

/-! ### New DATA (R99, R104) -/

/-- Settles O34: of the TX actions only new DATA writes TXQ, and it is the last of the list. -/
theorem ackGoesBeforeNewData : Obligations.AckGoesBeforeNewData := by
  intro s t r ht h popped
  cases tx_outcome_of_turn h ht with
  | newData p rest _ _ free noRstAck hl noAck running queued room =>
    exact ⟨hl, noAck, noRstAck, free, running, room, p, queued⟩
  | _ => exact absurd rfl popped

theorem TxOutcome.nextTxSeq_cases {r : DriverReply} {s t : State} (h : TxOutcome r s t) :
    t.nextTxSeq = s.nextTxSeq ∨
    (t.nextTxSeq = s.nextTxSeq + 1 ∧ ∃ p, s.txq = p :: t.txq ∧
      t.ofq.map Entry.untimed = s.ofq.map Entry.untimed ++ [(⟨s.nextTxSeq, p, 0, 0⟩ : Entry)] ∧
      ∃ r, t.trace = s.trace ++ [.wireTx (headerByte cmdData s.nextTxSeq :: p) r]) ∨
    (t.nextTxSeq = 0 ∧ t.ofq = []) := by
  cases h with
  | newData p rest l _ _ _ _ _ _ queued _ _ ages =>
    exact .inr (.inl ⟨rfl, p, queued, ages.1.trans List.map_append, r, rfl⟩)
  | ceiling => exact .inr (.inr ⟨rfl, rfl⟩)
  | _ => exact .inl rfl

/-- Settles O35: the counter is written by new DATA and by the resets. -/
theorem numbersGoToPayloadsInQueueOrder : Obligations.NumbersGoToPayloadsInQueueOrder := by
  intro s t h moved
  cases step_outcome h with
  | tx r t _ hx => exact hx.nextTxSeq_cases.resolve_left moved
  | initialized | rxResetReq => exact .inr ⟨rfl, rfl⟩
  | _ => exact absurd rfl moved

/-! ### Retention (43_transmit.md section 4) -/

/-- The frame of `e` is still outstanding among `l`, re-sent no fewer times. -/
def Retained (e : Entry) (l : List Entry) : Prop :=
  ∃ e' ∈ l, e'.seq = e.seq ∧ e'.payload = e.payload ∧ e.retx ≤ e'.retx

theorem Retained.of_mem {e : Entry} {l : List Entry} (h : e ∈ l) : Retained e l := ⟨e, h, rfl, rfl, Nat.le_refl _⟩

theorem AgesOnly.retained {l m : List Entry} {e : Entry} (h : AgesOnly l m) (he : Retained e m) : Retained e l := by
  obtain ⟨x, hx, hseq, hpay, hretx⟩ := he
  obtain ⟨y, hy, hseq', hpay', hretx'⟩ := h.exists_of_mem hx
  exact ⟨y, hy, hseq'.trans hseq, hpay'.trans hpay, hretx' ▸ hretx⟩

theorem TxOutcome.retained_or_ceiling {r : DriverReply} {s t : State} {e : Entry} (h : TxOutcome r s t)
    (he : e ∈ s.ofq) :
    Retained e t.ofq ∨
      t.ofq = [] ∧ ∃ x, txAction s = some (.expiry x) ∧ s.cfg.maxRetx ≤ x.retx := by
  cases h with
  | retry _ l _ _ _ _ _ ages => exact .inl (ages.retained (.of_mem he))
  | retransmit pre post x l _ _ _ split _ _ _ _ ages =>
    refine .inl (ages.retained ?_)
    rw [split] at he
    rcases List.mem_append.mp he with before | rest
    · exact .of_mem (List.mem_append_left _ before)
    · rcases List.mem_cons.mp rest with rfl | after
      · exact ⟨_, List.mem_append_right _ List.mem_cons_self, rfl, rfl, Nat.le_succ _⟩
      · exact .of_mem (List.mem_append_right _ (List.mem_cons_of_mem _ after))
  | newData p rest l _ _ _ _ _ _ _ _ _ ages => exact .inl (ages.retained (.of_mem (List.mem_append_left _ he)))
  | ceiling x chosen _ _ spent => exact .inr ⟨rfl, x, chosen, spent⟩
  | _ => exact .inl (.of_mem he)

/-- Settles O36: retire filters by the ACK, the three reset actions clear, and everything else retains. -/
theorem outstandingFrameLeavesOnlyByAckOrReset : Obligations.OutstandingFrameLeavesOnlyByAckOrReset := by
  intro s t e h he
  cases step_outcome h with
  | tx r t ht hx =>
    exact (hx.retained_or_ceiling he).imp_right fun ⟨cleared, x, chosen, spent⟩ =>
      .inr ⟨cleared, .inr (.inr ⟨⟨r, ht⟩, x, chosen, spent⟩)⟩
  | ticked => exact .inl ⟨_, List.mem_map_of_mem he, rfl, rfl, Nat.le_refl _⟩
  | initialized ht => exact .inr (.inr ⟨rfl, .inl ht⟩)
  | rxResetReq b rest q p ht hq hd => exact .inr (.inr ⟨rfl, .inr (.inl ⟨ht, b, rest, q, p, hq, hd⟩)⟩)
  | rxAck b rest a p ht hq hd hl =>
    cases covered : seqLe e.seq a with
    | true => exact .inr (.inl ⟨a, ⟨ht, hl, b, rest, p, hq, hd⟩, covered⟩)
    | false => exact .inl (Retained.of_mem (List.mem_filter.mpr ⟨he, by simp [covered]⟩))
  | _ => exact .inl (Retained.of_mem he)

/-! ### Which elements an agent writes (R33, R47) -/

/-- All that a turn of RXS can do (R83, R84). -/
theorem rx_cases_of_turn {s t : State} (h : step s = .next t) (ht : nextTurn s = .rxs) :
    (s.rxq = [] ∧ t = spendTurn s) ∨
    (∃ rest, s.rxq = [] :: rest ∧ t = dropMalformed (popped s rest)) ∨
    ∃ b rest i, s.rxq = b :: rest ∧ decode b = .ok i ∧ t = received i (popped s rest) := by
  obtain ⟨_, taken⟩ := step_next h
  rw [ht] at taken
  exact rxStep_next taken

/-- R47: no frame's rule writes the queues, adds an outstanding entry or holds a frame. -/
theorem received_frame (i : Instr) (s : State) :
    (received i s).rxq = s.rxq ∧ (received i s).txq = s.txq ∧ (received i s).waiting = s.waiting ∧
      (∀ e ∈ (received i s).ofq, e ∈ s.ofq) ∧ ((received i s).hold = s.hold ∨ (received i s).hold = none) := by
  rcases received_cases i s with same | ⟨p, _, _, inOrder⟩ | ⟨q, p, _, _, duplicate⟩ | ⟨a, p, _, _, retired⟩ |
    ⟨q, p, _, reset⟩ | ⟨q, p, _, _, completed⟩ | unknown
  · rw [same]; exact ⟨rfl, rfl, rfl, fun _ he => he, .inl rfl⟩
  · rw [inOrder]; exact ⟨rfl, rfl, rfl, fun _ he => he, .inl rfl⟩
  · rw [duplicate]; exact ⟨rfl, rfl, rfl, fun _ he => he, .inl rfl⟩
  · rw [retired]; exact ⟨rfl, rfl, rfl, fun _ he => List.mem_of_mem_filter he, .inl rfl⟩
  · rw [reset]; exact ⟨rfl, rfl, rfl, nofun, .inr rfl⟩
  · rw [completed]
    rcases resetComplete_cases s with ⟨_, dropped⟩ | ⟨_, kept⟩
    · rw [dropped]; exact ⟨rfl, rfl, rfl, fun _ he => he, .inr rfl⟩
    · rw [kept]; exact ⟨rfl, rfl, rfl, fun _ he => he, .inl rfl⟩
  · rw [unknown]; exact ⟨rfl, rfl, rfl, fun _ he => he, .inl rfl⟩

theorem rx_writes {s t : State} (h : step s = .next t) (ht : nextTurn s = .rxs) :
    t.rxq = s.rxq.tail ∧ t.txq = s.txq ∧ t.waiting = s.waiting ∧ (∀ e ∈ t.ofq, e ∈ s.ofq) ∧
      (t.hold = s.hold ∨ t.hold = none) := by
  rcases rx_cases_of_turn h ht with ⟨hq, rfl⟩ | ⟨rest, hq, rfl⟩ | ⟨b, rest, i, hq, _, rfl⟩ <;> rw [hq]
  · exact ⟨hq, rfl, rfl, fun _ he => he, .inl rfl⟩
  · exact ⟨rfl, rfl, rfl, fun _ he => he, .inl rfl⟩
  · exact received_frame i (popped s rest)

theorem TxOutcome.writes {r : DriverReply} {s t : State} (h : TxOutcome r s t) :
    t.rxq = s.rxq ∧ t.waiting = s.waiting ∧
      ((t.rxCursor = s.rxCursor ∧ t.lastDeliveredSeq = s.lastDeliveredSeq) ∨
        ∃ e, txAction s = some (.expiry e) ∧ s.cfg.maxRetx ≤ e.retx) := by
  cases h with
  | ceiling e chosen _ _ spent => exact ⟨rfl, rfl, .inr ⟨e, chosen, spent⟩⟩
  | _ => exact ⟨rfl, rfl, .inl ⟨rfl, rfl⟩⟩

/-- R47: an input other than INIT leaves all but what it pushes, the ready latch and the ages. -/
theorem StepOutcome.env_writes {s t : State} (h : StepOutcome s t) (noInit : nextTurn s ≠ .init)
    (noRx : nextTurn s ≠ .rxs) (noTx : ∀ r, nextTurn s ≠ .txs r) :
    t.link = s.link ∧ t.reqPending = s.reqPending ∧ t.resetRetry = s.resetRetry ∧
      t.rstAckPending = s.rstAckPending ∧ t.rxCursor = s.rxCursor ∧
      t.lastDeliveredSeq = s.lastDeliveredSeq ∧ t.ackPending = s.ackPending ∧
      t.nextTxSeq = s.nextTxSeq ∧ t.hold = s.hold ∧
      t.ofq.map Entry.untimed = s.ofq.map Entry.untimed ∧
      (t.rxq = s.rxq ∨ ∃ b, t.rxq = s.rxq ++ [b]) ∧ (t.txq = s.txq ∨ ∃ p, t.txq = s.txq ++ [p]) := by
  cases h with
  | initialized ht => exact absurd ht noInit
  | tx r t ht => exact absurd ht (noTx r)
  | rxIdle ht | rxMalformed _ ht | rxDropped _ _ _ ht | rxUnknown _ _ _ ht | rxInOrder _ _ _ ht
  | rxDuplicate _ _ _ _ ht | rxAck _ _ _ _ ht | rxResetReq _ _ _ _ ht | rxResetAckHeld _ _ _ _ ht
  | rxResetAck _ _ _ _ ht => exact absurd ht noRx
  | submitQueued p | resumeQueued _ p =>
    exact ⟨rfl, rfl, rfl, rfl, rfl, rfl, rfl, rfl, rfl, rfl, .inl rfl, .inr ⟨p, rfl⟩⟩
  | frameQueued b => exact ⟨rfl, rfl, rfl, rfl, rfl, rfl, rfl, rfl, rfl, rfl, .inr ⟨b, rfl⟩, .inl rfl⟩
  | ticked =>
    refine ⟨rfl, rfl, rfl, rfl, rfl, rfl, rfl, rfl, rfl, ?_, .inl rfl, .inl rfl⟩
    simp [Function.comp_def]
  | _ => exact ⟨rfl, rfl, rfl, rfl, rfl, rfl, rfl, rfl, rfl, rfl, .inl rfl, .inl rfl⟩

/-- Settles O55: one lemma per agent. -/
theorem agentsWriteOnlyTheirElements : Obligations.AgentsWriteOnlyTheirElements := by
  intro s t h
  obtain ⟨_, _, sameCfg⟩ := step_spends h
  refine ⟨sameCfg, rx_writes h, fun ⟨r, ht⟩ => ?_, (step_outcome h).env_writes⟩
  obtain ⟨rxq, waiting, cursors⟩ := (tx_outcome_of_turn h ht).writes
  exact ⟨rxq, waiting, cursors.imp_right fun ⟨e, chosen, spent⟩ => ⟨⟨r, ht⟩, e, chosen, spent⟩⟩

end Sys2Proof.Machine
end

section
/-!
One turn at a time (20_memory.md R45): which turn is next, the two workers' turns, and the SUBMIT port with its blocked callers
(43_transmit.md R94).
-/
namespace Sys2Proof.Machine

/-! ### The next turn (log 2) -/

theorem nextTurn_of_script {s : State} {t : Turn} {ts : List Turn} (h : s.script = t :: ts) : nextTurn s = t := by
  simp only [nextTurn, h]

theorem nextTurn_of_script_nil {s : State} (h : s.script = []) : nextTurn s = Config.freeTurn s.steps := by
  simp only [nextTurn, h]

/-- Settles O18: `step_of_legal` and the two lines of `nextTurn`. -/
theorem stepTakesTheNextTurn : Obligations.StepTakesTheNextTurn :=
  ⟨fun _ => step_of_legal, fun _ => rfl, fun _ _ _ => nextTurn_of_script, fun _ => nextTurn_of_script_nil⟩

/-! ### A worker's turn (R83, R99; log 3) -/

theorem step_of_rxq_nil {s : State} (hc : s.cfg.legal = true) (ht : nextTurn s = .rxs) (hq : s.rxq = []) :
    step s = .next (spendTurn s) :=
  (step_of_turn hc ht).trans (rxStep_of_empty hq)

theorem step_of_frame {s : State} {b : Bytes} {rest : List Bytes} {i : Instr} (hc : s.cfg.legal = true)
    (ht : nextTurn s = .rxs) (hq : s.rxq = b :: rest) (hd : decode b = .ok i) :
    step s = .next (received i (popped s rest)) :=
  (step_of_turn hc ht).trans (rxStep_of_frame (s := spendTurn s) hq hd)

/-- Settles O19: `exec` answers the state `received` names. -/
theorem stepRunsTheDecodedFrame : Obligations.StepRunsTheDecodedFrame :=
  ⟨fun _ _ _ i hc ht hq hd => (step_of_frame hc ht hq hd).trans (exec_eq i _).symm,
    fun _ hc ht hq => step_of_rxq_nil hc ht hq⟩

theorem txStep_of_none {s : State} (r : DriverReply) (h : txAction s = none) : txStep r s = .next s := by
  simp only [txStep, h]

theorem step_of_txAction_none {s : State} {r : DriverReply} (hc : s.cfg.legal = true) (ht : nextTurn s = .txs r)
    (h : txAction s = none) : step s = .next (spendTurn s) :=
  (step_of_turn hc ht).trans (txStep_of_none r h)

/-- Settles O56: neither queue nor arbitration reads the script or the counter, so what is idle stays so. -/
theorem quiescentBlockWaitsForInput : Obligations.QuiescentBlockWaitsForInput := by
  refine ⟨fun _ hc ht hq => step_of_rxq_nil hc ht hq, fun _ _ hc ht h => step_of_txAction_none hc ht h, ?_⟩
  rintro s hc ⟨hq, h⟩ (ht | ⟨r, ht⟩)
  · exact ⟨step_of_rxq_nil hc ht hq, hq, h⟩
  · exact ⟨step_of_txAction_none hc ht h, hq, h⟩

/-! ### SUBMIT (R94; log 4) -/

theorem submit_of_long {s : State} {p : Bytes} (long : maxPayload < p.length) :
    submit p s = { emit .rejectOversizeFrame s with submitReply := some .oversizeFrame } := if_pos long

theorem submit_of_full {s : State} {p : Bytes} (fits : p.length ≤ maxPayload) (full : s.txq.length = s.cfg.txqDepth) :
    submit p s = { s with waiting := s.waiting ++ [p] } := by
  rcases submit_cases p s with ⟨long, _⟩ | ⟨_, _, blocked⟩ | ⟨_, room, _⟩
  · exact absurd fits (Nat.not_le.mpr long)
  · exact blocked
  · exact absurd full room

theorem next_cfg_legal {s t : State} (h : step s = .next t) : t.cfg.legal = true := by
  rw [(step_spends h).2.2]
  exact (step_next h).1

/-- Settles O22: the three cases of `submit`; INIT empties TXQ, and a TX step that changes it takes its head. -/
theorem submitAcceptsRefusesOrBlocks : Obligations.SubmitAcceptsRefusesOrBlocks := by
  refine ⟨fun s p hc ht => ?turn, fun s t full h lifts => ?lifted⟩
  case turn =>
    have taken : step s = .next (submit p (spendTurn s)) := step_of_turn hc ht
    rw [taken]
    refine ⟨fun long => ?_, fun fits room => ?_, fun fits full => ⟨s.waiting ++ [p], ?_⟩⟩
    · rw [submit_of_long long]; rfl
    · rw [submit_of_room (s := spendTurn s) fits room]; rfl
    · rw [submit_of_full (s := spendTurn s) fits full]; rfl
  case lifted =>
    rcases lifts with ht | ⟨⟨r, ht⟩, changed⟩
    · have depth := txqDepth_pos_of_legal (next_cfg_legal h)
      cases h.symm.trans (step_of_turn (step_next h).1 ht)
      exact Nat.ne_of_lt depth
    · obtain ⟨_, _, _, _, _, _, p, taken⟩ := ackGoesBeforeNewData s t r ht h changed
      rw [(step_spends h).2.2, ← full, taken]
      exact Nat.ne_of_lt (Nat.lt_succ_self _)

theorem resumeSubmit_of_none {s : State} {i : Nat} (h : s.waiting[i]? = none) : resumeSubmit i s = s := by
  simp only [resumeSubmit, h]

theorem resumeSubmit_of_full {s : State} (i : Nat) (full : s.txq.length = s.cfg.txqDepth) : resumeSubmit i s = s := by
  rcases resumeSubmit_cases i s with idle | ⟨_, _, room, _⟩
  · exact idle
  · exact absurd full room

theorem resumeSubmit_of_room {s : State} {i : Nat} {p : Bytes} (waits : s.waiting[i]? = some p)
    (room : s.txq.length ≠ s.cfg.txqDepth) :
    resumeSubmit i s = { enqueuePayload p s with waiting := s.waiting.eraseIdx i } := by
  simp [resumeSubmit, waits, State.txqFull, room]

/-- Settles O23: the `i`-th caller of the list is served and leaves it, the others keeping their order. -/
theorem blockedSubmitIsTakenWhenThereIsRoom : Obligations.BlockedSubmitIsTakenWhenThereIsRoom := by
  refine ⟨fun s p hc ht fits full => ?blocks, fun s p pre post hc waits ht => ?resumes, fun s i hc ht none => ?noCaller⟩
  case blocks =>
    calc step s
      _ = .next (submit p (spendTurn s)) := step_of_turn hc ht
      _ = _ := congrArg _ (submit_of_full (s := spendTurn s) fits full)
  case resumes =>
    have taken : step s = .next (resumeSubmit pre.length (spendTurn s)) := step_of_turn hc ht
    have caller : (spendTurn s).waiting[pre.length]? = some p := by simp [waits]
    have others : (spendTurn s).waiting.eraseIdx pre.length = pre ++ post := by simp [waits, List.eraseIdx_append]
    rw [taken]
    refine ⟨fun room => ?_, fun full => ?_⟩
    · rw [resumeSubmit_of_room caller room, others]; rfl
    · rw [resumeSubmit_of_full (s := spendTurn s) _ full]
  case noCaller =>
    calc step s
      _ = .next (resumeSubmit i (spendTurn s)) := step_of_turn hc ht
      _ = .next (spendTurn s) :=
        congrArg _ (resumeSubmit_of_none (s := spendTurn s) (List.getElem?_eq_none_iff.mpr none))

end Sys2Proof.Machine
end

section
/-!
The hold retry (43_transmit.md R98): one attempt of the held frame, after the log of a wait that ran out.
-/
namespace Sys2Proof.Machine

/-- R98: a wait that ended without the ready signal is logged. -/
def waitLogged (s : State) : State := if s.readySeen then s else emit (.log .busyWaitTimeout) s

theorem waitLogged_of_ready {s : State} (h : s.readySeen = true) : waitLogged s = s := if_pos h

theorem waitLogged_of_timeout {s : State} (h : s.readySeen = false) :
    waitLogged s = emit (.log .busyWaitTimeout) s := if_neg (by simp [h])

theorem retryHeld_ok (h : Held) (s : State) :
    retryHeld h .ok s = accepted h.kind h.seq { attempt h.frame .ok (waitLogged s) with hold := none } := rfl

theorem retryHeld_busy (h : Held) (s : State) : retryHeld h .busy s = attempt h.frame .busy (waitLogged s) := rfl

theorem attempt_emit (e : Event) (f : Bytes) (r : DriverReply) (s : State) :
    attempt f r (emit e s) =
      { s with trace := s.trace ++ [e, .wireTx f r], waitAge := 0, readySeen := false } := by
  simp [attempt, emit]

theorem step_of_held {s : State} {h : Held} {r : DriverReply} (hc : s.cfg.legal = true) (ht : nextTurn s = .txs r)
    (held : s.hold = some h) (due : s.readySeen = true ∨ s.waitAge = s.cfg.busyWaitTicks) :
    step s = .next (retryHeld h r (spendTurn s)) := by
  have chosen : txAction s = some (.holdRetry h) := by rw [txAction_of_hold held, if_pos due]
  exact step_of_txAction hc ht chosen

/-- Settles O27: the ready signal and the end of the wait enable the one action, and differ in the log. -/
theorem heldFrameIsRetried : Obligations.HeldFrameIsRetried := by
  intro s h r hc ht held
  refine ⟨fun notReady waits => ?waits, fun ready => ?ready, fun notReady ranOut => ?timeout⟩
  case waits =>
    refine step_of_txAction_none hc ht ?_
    rw [txAction_of_hold held, if_neg (by simp [notReady, waits])]
  case ready =>
    have same : waitLogged (spendTurn s) = spendTurn s := waitLogged_of_ready ready
    rw [step_of_held hc ht held (.inl ready)]
    cases r with
    | ok => rw [retryHeld_ok, same]; rfl
    | busy => rw [retryHeld_busy, same]; rfl
  case timeout =>
    have logged : waitLogged (spendTurn s) = emit (.log .busyWaitTimeout) (spendTurn s) :=
      waitLogged_of_timeout notReady
    rw [step_of_held hc ht held (.inr ranOut)]
    cases r with
    | ok => rw [retryHeld_ok, logged, attempt_emit]; rfl
    | busy => rw [retryHeld_busy, logged, attempt_emit]; rfl

end Sys2Proof.Machine
end

section
/-!
INIT and the reset handshake (44_link_reset.md R109 to R114, 95_test_vectors.md section 1.4): one lemma per part of the
handshake, put together along each side's schedule.
-/
namespace Sys2Proof.Machine

/-! ### INIT (R109) -/

theorem init_next {s t : State} (h : step s = .next t) (ht : nextTurn s = .init) : t = initSession (spendTurn s) := by
  cases h.symm.trans (step_of_turn (step_next h).1 ht)
  rfl

/-- R109: what INIT leaves is power-on with a RESET_REQ due; only the outputs and the model's own fields stay. -/
theorem initSession_eq (s : State) :
    initSession s = { State.powerOn s.cfg with
      link := .await, reqPending := true, trace := s.trace, submitReply := s.submitReply, waiting := s.waiting,
      script := s.script, steps := s.steps } := rfl

/-- Settles O38. -/
theorem initIsIdempotent : Obligations.InitIsIdempotent := by
  refine ⟨fun s t u ht h hu h' => ?again, fun s s' t t' sameCfg ht ht' h h' => ?independent⟩
  case again =>
    obtain rfl := init_next h ht
    obtain rfl := init_next h' hu
    rfl
  case independent =>
    obtain rfl := init_next h ht
    obtain rfl := init_next h' ht'
    rw [initSession_eq (spendTurn s'), initSession_eq (spendTurn s), spendTurn_cfg, spendTurn_cfg, sameCfg]

/-! ### Runs along a script -/

/-- `k` steps lead from `s` to `t`. -/
def Runs (k : Nat) (s t : State) : Prop := Sys2Proof.core.run k s = .next t

theorem Runs.refl (s : State) : Runs 0 s s := rfl

theorem Runs.step_then {k : Nat} {s u t : State} (h : step s = .next u) (rest : Runs k u t) : Runs (k + 1) s t :=
  (run_of_step h k).trans rest

/-- `s` after `n` turns that left nothing of the block changed, with `ts` still to come. -/
def turnsSpent (n : Nat) (ts : List Turn) (s : State) : State := { s with script := ts, steps := s.steps + n }

theorem spendTurn_eq {s : State} {t : Turn} {ts : List Turn} (hs : s.script = t :: ts) :
    spendTurn s = turnsSpent 1 ts s := by
  rw [spendTurn, hs, turnsSpent, List.tail_cons]

/-! ### The parts of the handshake -/

theorem rxqDepth_pos_of_legal {c : Config} (h : c.legal = true) : 1 ≤ c.rxqDepth := by
  simp only [Config.legal, Bool.and_eq_true, decide_eq_true_eq] at h
  omega

/-- R109, R113: what INIT and the sending of its RESET_REQ make of `s`: both directions at 0, waiting for the answer. -/
def requestSent (ts : List Turn) (s : State) : State :=
  { turnsSpent 1 ts (initSession (spendTurn s)) with
    reqPending := false, trace := s.trace ++ [.wireTx [0x02] .ok] }

theorem runs_init_send {s t : State} {ts : List Turn} {k : Nat} (hc : s.cfg.legal = true)
    (hs : s.script = .init :: .txs .ok :: ts) (rest : Runs k (requestSent ts s) t) : Runs (k + 2) s t := by
  have started : step s = .next (initSession (spendTurn s)) := step_of_turn hc (nextTurn_of_script hs)
  have script : (initSession (spendTurn s)).script = .txs .ok :: ts := by simp [hs]
  have sent : step (initSession (spendTurn s)) = .next (requestSent ts s) := by
    rw [dueResetReqIsSent (initSession (spendTurn s)) .ok hc (nextTurn_of_script script) rfl rfl rfl rfl,
      spendTurn_eq script]
    rfl
  exact .step_then started (.step_then sent rest)

/-- R82, R83: a frame delivered to an empty RXQ and run at once. -/
theorem runs_frame {s t : State} {b : Bytes} {i : Instr} {ts : List Turn} {k : Nat} (hc : s.cfg.legal = true)
    (empty : s.rxq = []) (fits : b.length ≤ 256) (hd : decode b = .ok i) (hs : s.script = .rxFrame b :: .rxs :: ts)
    (rest : Runs k (received i (turnsSpent 2 ts s)) t) : Runs (k + 2) s t := by
  have depth := rxqDepth_pos_of_legal hc
  have queued : step s = .next { turnsSpent 1 (.rxs :: ts) s with rxq := [b] } := by
    rw [inboundFrameIsQueuedOrDropped s b hc (nextTurn_of_script hs), empty,
      if_neg (by rw [List.length_nil]; omega), spendTurn_eq hs]
    rfl
  have back : popped { turnsSpent 1 (.rxs :: ts) s with rxq := [b] } [] = turnsSpent 2 ts s := by
    simp [popped, spendTurn, turnsSpent, empty]
  have run := step_of_frame (s := { turnsSpent 1 (.rxs :: ts) s with rxq := [b] }) hc (nextTurn_of_script rfl) rfl hd
  rw [back] at run
  exact .step_then queued (.step_then run rest)

/-- R114: the RESET_ACK that is due goes out. -/
theorem runs_answer {s t : State} {ts : List Turn} {k : Nat} (hc : s.cfg.legal = true) (free : s.hold = none)
    (due : s.rstAckPending = true) (hs : s.script = .txs .ok :: ts)
    (rest : Runs k { turnsSpent 1 ts s with
      rstAckPending := false, waitAge := 0, readySeen := false, trace := s.trace ++ [.wireTx [0x03] .ok],
      hold := none } t) : Runs (k + 1) s t := by
  have sent := dueResetAckIsSent s .ok hc (nextTurn_of_script hs) free due
  rw [spendTurn_eq hs] at sent
  exact .step_then sent rest

theorem received_resetAck_of_await {s : State} (q : Seq) (p : Bytes) (hl : s.link = .await) (free : s.hold = none) :
    received (.resetAck q p) s = establish s := by
  have notHeld : ¬ s.holdsResetReq = true := by
    rw [holdsResetReq_iff, free]
    nofun
  rw [received, receiveResetAck_of_await hl, resetComplete_of_not_held notHeld]

theorem received_resetAck_of_est {s : State} (q : Seq) (p : Bytes) (hl : s.link = .est) :
    received (.resetAck q p) s = s :=
  receiveResetAck_of_ne_await (by rw [hl]; nofun)

/-- R90, R114: the state of a side that received a RESET_REQ and has answered it. -/
def requestAnswered (ts : List Turn) (s : State) : State :=
  { turnsSpent 3 ts (peerReset s) with rstAckPending := false, trace := s.trace ++ [.wireTx [0x03] .ok] }

theorem runs_receive_answer {s t : State} {ts : List Turn} {k : Nat} (hc : s.cfg.legal = true) (empty : s.rxq = [])
    (hs : s.script = .rxFrame [0x02] :: .rxs :: .txs .ok :: ts) (rest : Runs k (requestAnswered ts s) t) :
    Runs (k + 3) s t :=
  runs_frame (i := .resetReq 0 []) hc empty (by decide) rfl hs
    (runs_answer (s := peerReset (turnsSpent 2 (.txs .ok :: ts) s)) hc rfl rfl rfl rest)

/-! ### The two schedules -/

theorem runs_initiator {s : State} (hc : s.cfg.legal = true)
    (hs : s.script = [.init, .txs .ok, .rxFrame [0x03], .rxs]) :
    Runs 4 s (establish (turnsSpent 2 [] (requestSent [.rxFrame [0x03], .rxs] s))) := by
  refine runs_init_send hc hs (runs_frame (i := .resetAck 0 []) hc rfl (by decide) rfl rfl ?_)
  rw [received_resetAck_of_await 0 [] rfl rfl]
  exact .refl _

theorem runs_responder {s : State} (hc : s.cfg.legal = true) (empty : s.rxq = [])
    (hs : s.script = [.rxFrame [0x02], .rxs, .txs .ok]) : Runs 3 s (requestAnswered [] s) :=
  runs_receive_answer hc empty hs (.refl _)

theorem runs_crossing {s : State} (hc : s.cfg.legal = true)
    (hs : s.script = [.init, .txs .ok, .rxFrame [0x02], .rxs, .txs .ok, .rxFrame [0x03], .rxs]) :
    Runs 7 s (turnsSpent 2 [] (requestAnswered [.rxFrame [0x03], .rxs]
      (requestSent [.rxFrame [0x02], .rxs, .txs .ok, .rxFrame [0x03], .rxs] s))) := by
  refine runs_init_send hc hs (runs_receive_answer hc rfl rfl
    (runs_frame (i := .resetAck 0 []) hc rfl (by decide) rfl rfl ?_))
  rw [received_resetAck_of_est 0 [] rfl]
  exact .refl _

/-- Settles O44: the three runs; where the requests cross, the answer received finds the link in EST already. -/
theorem handshakeConvergesOnBothSides : Obligations.HandshakeConvergesOnBothSides := by
  refine ⟨fun a b ha hb empty sa sb => ?oneSide, fun a ha sa => ?bothSides⟩
  case oneSide =>
    exact ⟨_, _, runs_initiator ha sa, runs_responder hb empty sb, rfl, rfl, rfl, rfl, rfl, rfl, rfl, rfl⟩
  case bothSides =>
    refine ⟨_, runs_crossing ha sa, rfl, rfl, rfl, ?_⟩
    exact List.append_assoc a.trace [.wireTx [0x02] .ok] [.wireTx [0x03] .ok]

end Sys2Proof.Machine
end

section
/-!
The timers over a run of TICKs (60_exceptions.md R125, R126): `n` of them add `n` to every age, up to the timeout.
-/
namespace Sys2Proof.Machine

/-- R125, `n` times over: the entry with its age `n` more, up to the timeout. -/
def Entry.aged (timeout n : Nat) (e : Entry) : Entry := { e with age := min (e.age + n) timeout }

theorem Entry.aged_zero {timeout : Nat} {e : Entry} (h : e.age ≤ timeout) : e.aged timeout 0 = e := by
  rw [Entry.aged, Nat.add_zero, Nat.min_eq_left h]

/-- One TICK and `n` more are `n + 1`: saturation does not lose count. -/
theorem Entry.aged_aged (timeout n : Nat) (e : Entry) : (e.aged timeout 1).aged timeout n = e.aged timeout (n + 1) := by
  simp only [Entry.aged, Entry.mk.injEq, true_and]
  omega

theorem Entry.aged_age_of_le {timeout n : Nat} (h : timeout ≤ n) (e : Entry) : (e.aged timeout n).age = timeout :=
  Nat.min_eq_right (h.trans (Nat.le_add_left n e.age))

theorem tick_ofq_eq (s : State) : (tick s).ofq = s.ofq.map (Entry.aged s.cfg.rtoTicks 1) := rfl

theorem runs_ticks (n : Nat) {s : State} {rest : List Turn} (hc : s.cfg.legal = true)
    (hs : s.script = List.replicate n .tick ++ rest) (bounded : ∀ e ∈ s.ofq, e.age ≤ s.cfg.rtoTicks) :
    ∃ t, Runs n s t ∧ t.script = rest ∧ t.cfg = s.cfg ∧ t.ofq = s.ofq.map (Entry.aged s.cfg.rtoTicks n) := by
  induction n generalizing s with
  | zero =>
    have same : s.ofq.map (Entry.aged s.cfg.rtoTicks 0) = s.ofq :=
      (List.map_congr_left fun e he => Entry.aged_zero (bounded e he)).trans (List.map_id _)
    exact ⟨s, .refl s, hs, rfl, same.symm⟩
  | succ n ih =>
    have script : s.script = .tick :: (List.replicate n .tick ++ rest) := hs
    have ticked : step s = .next (tick (spendTurn s)) := step_of_turn hc (nextTurn_of_script script)
    have tail : (tick (spendTurn s)).script = List.replicate n .tick ++ rest := by simp [script]
    have saturated : ∀ e ∈ (tick (spendTurn s)).ofq, e.age ≤ s.cfg.rtoTicks := by
      intro e he
      obtain ⟨x, _, rfl⟩ := List.mem_map.mp he
      exact saturate_le _ _
    obtain ⟨t, runs, left, sameCfg, aged⟩ := ih (s := tick (spendTurn s)) hc tail saturated
    refine ⟨t, .step_then ticked runs, left, sameCfg, ?_⟩
    rw [aged, tick_ofq_eq, List.map_map]
    exact List.map_congr_left fun e _ => e.aged_aged _ n

/-- Settles O46: `runs_ticks`; once the count reaches the timeout every age is the timeout. -/
theorem ticksRunOutEveryRetransmissionTimer : Obligations.TicksRunOutEveryRetransmissionTimer := by
  intro n s rest hc hs bounded
  obtain ⟨t, runs, left, sameCfg, aged⟩ := runs_ticks n hc hs bounded
  refine ⟨t, runs, left, aged, fun long e he => ?_⟩
  rw [aged] at he
  obtain ⟨x, _, rfl⟩ := List.mem_map.mp he
  rw [expired_iff, sameCfg]
  exact Entry.aged_age_of_le long x

end Sys2Proof.Machine
end

section
/-!
RXQ along a run (20_memory.md R46, R48): each step moves frames at its two ends only, so what was queued comes out in order;
and under weak fairness all of it comes out.
-/
namespace Sys2Proof.Machine

/-! ### One step -/

/-- What the next step takes from the head of RXQ. -/
def headTaken (s : State) : List Bytes := if nextTurn s = .rxs then s.rxq.head?.toList else []

theorem headTaken_of_rx {s : State} (ht : nextTurn s = .rxs) : headTaken s = s.rxq.head?.toList := if_pos ht

theorem headTaken_of_not_rx {s : State} (ht : nextTurn s ≠ .rxs) : headTaken s = [] := if_neg ht

/-- R47: apart from RXS and INIT only RX_FRAME writes RXQ, at its end. -/
theorem StepOutcome.rxq_of_not_rx {s t : State} (h : StepOutcome s t) (noInit : nextTurn s ≠ .init)
    (noRx : nextTurn s ≠ .rxs) : t.rxq = s.rxq ∨ ∃ b, nextTurn s = .rxFrame b ∧ t.rxq = s.rxq ++ [b] := by
  cases h with
  | frameQueued b ht => exact .inr ⟨b, ht, rfl⟩
  | tx r t _ hx => exact .inl hx.writes.1
  | initialized ht => exact absurd ht noInit
  | rxIdle ht | rxMalformed _ ht | rxDropped _ _ _ ht | rxUnknown _ _ _ ht | rxInOrder _ _ _ ht
  | rxDuplicate _ _ _ _ ht | rxAck _ _ _ _ ht | rxResetReq _ _ _ _ ht | rxResetAckHeld _ _ _ _ ht
  | rxResetAck _ _ _ _ ht => exact absurd ht noRx
  | _ => exact .inl rfl

/-- R48: over one step, what RXQ held and what arrives is what is taken and what RXQ holds then, in that order. -/
theorem step_rxq {s t : State} (h : step s = .next t) (noInit : nextTurn s ≠ .init) :
    ∃ arrived, arrived.Sublist (Turn.inboundFrame (nextTurn s)).toList ∧
      s.rxq ++ arrived = headTaken s ++ t.rxq := by
  by_cases ht : nextTurn s = .rxs
  · refine ⟨[], List.nil_sublist _, ?_⟩
    rw [headTaken_of_rx ht, (rx_writes h ht).1]
    cases s.rxq <;> simp
  · rw [headTaken_of_not_rx ht]
    rcases (step_outcome h).rxq_of_not_rx noInit ht with same | ⟨b, arrives, pushed⟩
    · exact ⟨[], List.nil_sublist _, by simp [same]⟩
    · exact ⟨[b], by rw [arrives]; exact List.Sublist.refl _, by simp [pushed]⟩

/-! ### A finite run -/

theorem filterMap_cons_toList {α β : Type} (f : α → Option β) (x : α) (l : List α) :
    (x :: l).filterMap f = (f x).toList ++ l.filterMap f := by
  cases h : f x <;> simp [h]

/-- A turn takes at most one frame, none but RXS's takes any, and RXS's takes one if there is one. -/
theorem headTaken_length (s : State) :
    (headTaken s).length ≤ [nextTurn s].count .rxs ∧
      min ([nextTurn s].count .rxs) s.rxq.length ≤ (headTaken s).length := by
  by_cases ht : nextTurn s = .rxs
  · rw [headTaken_of_rx ht, ht]
    cases s.rxq <;> simp
  · rw [headTaken_of_not_rx ht]
    simp [ht]

/-- Settles O59: by induction on the turns; the first step's frames go before those of the rest. -/
theorem queuedFramesAreHandledInOrder : Obligations.QueuedFramesAreHandledInOrder := by
  intro ts
  induction ts with
  | nil =>
    intro rest s t _ _ h
    cases h
    exact ⟨[], [], List.nil_sublist _, by simp, by simp, by simp⟩
  | cons x ts ih =>
    intro rest s t script noInit h
    obtain ⟨u, first, later⟩ := run_succ_next h
    have turn : nextTurn s = x := nextTurn_of_script script
    have tail : u.script = ts ++ rest := by rw [(step_spends first).1, script]; rfl
    have firstNoInit : nextTurn s ≠ .init := fun hx => noInit (by rw [← hx, turn]; exact List.mem_cons_self)
    obtain ⟨arrived, fromTurn, ends⟩ := step_rxq first firstNoInit
    obtain ⟨handled', arrived', fromTurns, ends', most, least⟩ :=
      ih rest u t tail (fun hi => noInit (List.mem_cons_of_mem x hi)) later
    obtain ⟨atMostOne, atLeastOne⟩ := headTaken_length s
    rw [turn] at fromTurn atMostOne atLeastOne
    have lengths := congrArg List.length ends
    have counted : (x :: ts).count .rxs = [x].count .rxs + ts.count .rxs := List.count_append (l₁ := [x])
    rw [List.length_append, List.length_append] at lengths
    refine ⟨headTaken s ++ handled', arrived ++ arrived', ?_, ?_, ?_, ?_⟩
    · rw [filterMap_cons_toList]
      exact fromTurn.append fromTurns
    · calc s.rxq ++ (arrived ++ arrived')
        _ = headTaken s ++ (u.rxq ++ arrived') := by rw [← List.append_assoc, ends, List.append_assoc]
        _ = headTaken s ++ handled' ++ t.rxq := by rw [ends', List.append_assoc]
    · rw [List.length_append, counted]
      omega
    · rw [List.length_append, counted]
      omega

/-! ### An infinite run (R46) -/

/-- The `m`-th state of a run as `step` takes it, with its turn as the script. -/
def scheduled (sched : Nat → Turn) (run : Nat → State) (m : Nat) : State := { run m with script := [sched m] }

theorem nextTurn_scheduled (sched : Nat → Turn) (run : Nat → State) (m : Nat) :
    nextTurn (scheduled sched run m) = sched m := rfl

theorem rxTaken_iff (sched : Nat → Turn) (run : Nat → State) (m : Nat) :
    rxTaken sched run m = true ↔ (run m).rxq ≠ [] ∧ sched m = .rxs := by
  simp [rxTaken, State.rxEnabled]

/-- The heads `handledFrames` collects are what the steps take. -/
theorem headTaken_scheduled (sched : Nat → Turn) (run : Nat → State) (m : Nat) :
    headTaken (scheduled sched run m) = (if rxTaken sched run m then (run m).rxq.head? else none).toList := by
  by_cases ht : sched m = .rxs
  · rw [headTaken_of_rx (s := scheduled sched run m) ht]
    cases hq : (run m).rxq <;> simp [scheduled, rxTaken, State.rxEnabled, ht, hq]
  · rw [headTaken_of_not_rx (s := scheduled sched run m) ht,
      if_neg fun taken => ht ((rxTaken_iff sched run m).mp taken).2]
    rfl

theorem handledFrames_succ_eq (sched : Nat → Turn) (run : Nat → State) (n k : Nat) :
    handledFrames sched run n (k + 1) = handledFrames sched run n k ++ headTaken (scheduled sched run (n + k)) := by
  rw [handledFrames_succ, headTaken_scheduled]

theorem handledFrames_length_mono (sched : Nat → Turn) (run : Nat → State) (n k j : Nat) :
    (handledFrames sched run n k).length ≤ (handledFrames sched run n (k + j)).length := by
  induction j with
  | zero => exact Nat.le_refl _
  | succ j ih =>
    rw [← Nat.add_assoc, handledFrames_succ_eq, List.length_append]
    exact ih.trans (Nat.le_add_right _ _)

/-- R83, R84: an RX step pops the head of RXQ and handles it. -/
theorem handlesHead_of_rx {s t : State} (h : step s = .next t) (ht : nextTurn s = .rxs) (enabled : s.rxq ≠ []) :
    HandlesHead s t := by
  obtain ⟨b, rest, hq⟩ := List.exists_cons_of_ne_nil enabled
  refine ⟨b, rest, hq, by rw [(rx_writes h ht).1, hq, List.tail_cons], fun i hd => ?frame, fun malformed => ?empty⟩
  case frame =>
    rw [next_of_frame h ht hq hd]
    exact exec_eq i _
  case empty =>
    subst malformed
    cases h.symm.trans (malformedFrameIsDroppedAndLogged s rest (step_next h).1 ht hq)
    rfl

section FairRun
variable {sched : Nat → Turn} {run : Nat → State} {n : Nat} (isRun : IsRun sched run)
  (noInit : ∀ m, n ≤ m → sched m ≠ .init)
include isRun noInit

/-- `step_rxq` for a step of the run. -/
theorem scheduled_rxq {m : Nat} (hm : n ≤ m) :
    ∃ arrived, arrived.Sublist (Turn.inboundFrame (sched m)).toList ∧
      (run m).rxq ++ arrived = headTaken (scheduled sched run m) ++ (run (m + 1)).rxq :=
  step_rxq (isRun m) (noInit m hm)

/-- R48 along the run: the frames queued at `n` come out first, in order. -/
theorem rxq_along_run (k : Nat) :
    ∃ arrived, arrived.Sublist (inboundFrames sched n k) ∧
      (run n).rxq ++ arrived = handledFrames sched run n k ++ (run (n + k)).rxq := by
  induction k with
  | zero => exact ⟨[], List.nil_sublist _, by simp⟩
  | succ k ih =>
    obtain ⟨arrived, fromTurns, ends⟩ := ih
    obtain ⟨arrived', fromTurn, ends'⟩ := scheduled_rxq isRun noInit (Nat.le_add_right n k)
    refine ⟨arrived ++ arrived', ?_, ?_⟩
    · rw [inboundFrames_succ]
      exact fromTurns.append fromTurn
    · calc (run n).rxq ++ (arrived ++ arrived')
        _ = handledFrames sched run n k ++ ((run (n + k)).rxq ++ arrived') := by
          rw [← List.append_assoc, ends, List.append_assoc]
        _ = handledFrames sched run n (k + 1) ++ (run (n + (k + 1))).rxq := by
          rw [ends', handledFrames_succ_eq, List.append_assoc]
          rfl

/-- Until RXS is given its turn, a queue with a frame in it keeps one. -/
theorem rxq_stays_of_not_taken {m : Nat} (hm : n ≤ m) (queued : (run m).rxq ≠ [])
    (waits : rxTaken sched run m ≠ true) : (run (m + 1)).rxq ≠ [] := by
  have notRx : sched m ≠ .rxs := fun ht => waits ((rxTaken_iff sched run m).mpr ⟨queued, ht⟩)
  obtain ⟨arrived, _, ends⟩ := scheduled_rxq isRun noInit hm
  rw [headTaken_of_not_rx (s := scheduled sched run m) notRx, List.nil_append] at ends
  rw [← ends]
  exact List.append_ne_nil_of_left_ne_nil queued _

variable (fair : WeaklyFair sched run)
include fair

/-- R46: a queued frame gives RXS an enabled turn; otherwise its step would stay enabled for ever. -/
theorem exists_rxTaken {m : Nat} (hm : n ≤ m) (queued : (run m).rxq ≠ []) :
    ∃ j, rxTaken sched run (m + j) = true := by
  by_contra never
  have stays : ∀ j, (run (m + j)).rxq ≠ [] := by
    intro j
    induction j with
    | zero => exact queued
    | succ j ih =>
      exact rxq_stays_of_not_taken isRun noInit (hm.trans (Nat.le_add_right m j)) ih fun taken => never ⟨j, taken⟩
  obtain ⟨m', hm', turn⟩ := fair.1 m fun m' hm' => by
    obtain ⟨j, rfl⟩ := Nat.exists_eq_add_of_le hm'
    simpa [State.rxEnabled] using stays j
  obtain ⟨j, rfl⟩ := Nat.exists_eq_add_of_le hm'
  exact never ⟨j, (rxTaken_iff sched run (m + j)).mpr ⟨stays j, turn⟩⟩

/-- Any number of the frames queued at `n` is handled in the end: one more turn of RXS for each. -/
theorem exists_handled_length {c : Nat} (hc : c ≤ (run n).rxq.length) :
    ∃ k, c ≤ (handledFrames sched run n k).length := by
  induction c with
  | zero => exact ⟨0, Nat.zero_le _⟩
  | succ c ih =>
    obtain ⟨k, handled⟩ := ih (Nat.le_of_succ_le hc)
    by_cases more : c + 1 ≤ (handledFrames sched run n k).length
    · exact ⟨k, more⟩
    obtain ⟨arrived, _, ends⟩ := rxq_along_run isRun noInit k
    have lengths := congrArg List.length ends
    rw [List.length_append, List.length_append] at lengths
    have queued : (run (n + k)).rxq ≠ [] := List.ne_nil_of_length_pos (by omega)
    obtain ⟨j, taken⟩ := exists_rxTaken isRun noInit fair (Nat.le_add_right n k) queued
    obtain ⟨nonempty, turn⟩ := (rxTaken_iff sched run (n + k + j)).mp taken
    have grows := handledFrames_length_mono sched run n k j
    have one : (headTaken (scheduled sched run (n + k + j))).length = 1 := by
      obtain ⟨b, rest, hq⟩ := List.exists_cons_of_ne_nil nonempty
      rw [headTaken_of_rx (s := scheduled sched run (n + k + j)) turn]
      simp [scheduled, hq]
    refine ⟨k + j + 1, ?_⟩
    rw [handledFrames_succ_eq, List.length_append, ← Nat.add_assoc, one]
    omega

end FairRun

/-- Settles O60: run until as many frames are handled as were queued; order and handling hold along any run. -/
theorem fairRunHandlesEveryQueuedFrame : Obligations.FairRunHandlesEveryQueuedFrame := by
  intro sched run isRun fair n noInit
  obtain ⟨k, handled⟩ := exists_handled_length isRun noInit fair (Nat.le_refl _)
  obtain ⟨arrived, fromTurns, ends⟩ := rxq_along_run isRun noInit k
  refine ⟨k, arrived, fromTurns, ends, handled, fun j _ taken => ?_⟩
  obtain ⟨nonempty, turn⟩ := (rxTaken_iff sched run (n + j)).mp taken
  exact handlesHead_of_rx (isRun (n + j)) turn nonempty

end Sys2Proof.Machine
end

section
/-!
The outputs steer nothing (10_state.md R16, R34): each operation, taken from a state with other earlier events and another
earlier SUBMIT reply, appends the same events and makes the same changes.
-/
namespace Sys2Proof.Machine

/-- `s` with the events `tr` and the SUBMIT reply `rep` as its outputs so far. -/
def withOutputs (tr : List Event) (rep : Option SubmitReply) (s : State) : State :=
  { s with trace := tr, submitReply := rep }

/-- At `s` the operation appends the same events and makes the same changes whatever the outputs before it. -/
def OutputBlindAt (f : State → Host.Outcome State Fault Refusal) (s : State) : Prop :=
  ∀ t, f s = .next t → ∃ es, t.trace = s.trace ++ es ∧
    ∀ tr rep, ∃ rep', f (withOutputs tr rep s) = .next (withOutputs (tr ++ es) rep' t)

/-- An operation that appends `es` and leaves the reply. -/
theorem outputBlindAt_of_events {f : State → Host.Outcome State Fault Refusal} {s t : State} (es : List Event)
    (h : f s = .next t) (happ : t.trace = s.trace ++ es)
    (same : ∀ tr rep, f (withOutputs tr rep s) = .next (withOutputs (tr ++ es) rep t)) : OutputBlindAt f s := by
  intro u hu
  cases h.symm.trans hu
  exact ⟨es, happ, fun tr rep => ⟨rep, same tr rep⟩⟩

/-- An operation that appends nothing and leaves the reply. -/
theorem outputBlindAt_of_silent {f : State → Host.Outcome State Fault Refusal} {s t : State} (h : f s = .next t)
    (silent : t.trace = s.trace) (same : ∀ tr rep, f (withOutputs tr rep s) = .next (withOutputs tr rep t)) :
    OutputBlindAt f s :=
  outputBlindAt_of_events [] h (by rw [silent, List.append_nil]) fun tr rep => by rw [List.append_nil, same]

/-- An operation that is, from `s`, another one from `u`, which differs in no output. -/
theorem OutputBlindAt.of_eq {f g : State → Host.Outcome State Fault Refusal} {s u : State} (h : OutputBlindAt f u)
    (silent : u.trace = s.trace) (same : g s = f u)
    (sameAfter : ∀ tr rep, g (withOutputs tr rep s) = f (withOutputs tr rep u)) : OutputBlindAt g s := by
  intro t ht
  obtain ⟨es, happ, blind⟩ := h t (same.symm.trans ht)
  exact ⟨es, silent ▸ happ, fun tr rep => (blind tr rep).imp fun _ next => (sameAfter tr rep).trans next⟩

/-! ### The TX step's actions (R96 to R104) -/

theorem accepted_withOutputs (k : Cmd) (q : Seq) (tr : List Event) (rep : Option SubmitReply) (s : State) :
    accepted k q (withOutputs tr rep s) = withOutputs tr rep (accepted k q s) := by
  by_cases hd : k = cmdData
  · subst hd
    rw [accepted_data, accepted_data]; rfl
  by_cases hr : k = cmdResetReq ∧ s.link = .await
  · obtain ⟨rfl, hl⟩ := hr
    rw [accepted_resetReq_of_await (s := s) q hl, accepted_resetReq_of_await (s := withOutputs tr rep s) q hl]; rfl
  · rw [accepted_of_untimed (s := s) q hd hr, accepted_of_untimed (s := withOutputs tr rep s) q hd hr]

theorem accepted_trace (k : Cmd) (q : Seq) (s : State) : (accepted k q s).trace = s.trace := by
  obtain ⟨l, a, h, _⟩ := accepted_frame k q s
  rw [h]

theorem send_withOutputs (f : Bytes) (k : Cmd) (q : Seq) (r : DriverReply) (tr : List Event)
    (rep : Option SubmitReply) (s : State) :
    send f k q r (withOutputs tr rep s) = withOutputs (tr ++ [.wireTx f r]) rep (send f k q r s) := by
  cases r with
  | ok => exact accepted_withOutputs k q (tr ++ [.wireTx f .ok]) rep (attempt f .ok s)
  | busy => rfl

theorem send_trace (f : Bytes) (k : Cmd) (q : Seq) (r : DriverReply) (s : State) :
    (send f k q r s).trace = s.trace ++ [.wireTx f r] := by
  obtain ⟨l, a, h, _⟩ := send_frame f k q r s
  rw [h]

theorem outputBlindAt_sendEncoded (c : Cmd) (q : Seq) (p : Bytes) (r : DriverReply) (s : State) :
    OutputBlindAt (sendEncoded c q p r) s := by
  intro t h
  obtain ⟨fits, rfl⟩ := sendEncoded_next h
  refine ⟨_, send_trace _ c q r s, fun tr rep => ⟨rep, ?_⟩⟩
  rw [sendEncoded_of_le c q r _ fits, send_withOutputs]

/-- The events of a hold retry: the log of a wait that ran out, and the attempt. -/
def retryEvents (h : Held) (r : DriverReply) (s : State) : List Event :=
  if s.readySeen then [.wireTx h.frame r] else [.log .busyWaitTimeout, .wireTx h.frame r]

theorem attempt_waitLogged (h : Held) (r : DriverReply) (s : State) :
    attempt h.frame r (waitLogged s) =
      { s with trace := s.trace ++ retryEvents h r s, waitAge := 0, readySeen := false } := by
  cases hr : s.readySeen with
  | true => rw [waitLogged_of_ready hr, retryEvents, if_pos hr]; rfl
  | false => rw [waitLogged_of_timeout hr, attempt_emit, retryEvents, if_neg (by simp [hr])]

theorem outputBlindAt_retryHeld (h : Held) (r : DriverReply) (s : State) :
    OutputBlindAt (fun x => .next (retryHeld h r x)) s := by
  cases r with
  | ok =>
    refine outputBlindAt_of_events (retryEvents h .ok s) rfl ?_ fun tr rep => congrArg _ ?_
    · rw [retryHeld_ok, attempt_waitLogged, accepted_trace]
    · rw [retryHeld_ok, retryHeld_ok, attempt_waitLogged, attempt_waitLogged, ← accepted_withOutputs]; rfl
  | busy =>
    refine outputBlindAt_of_events (retryEvents h .busy s) rfl ?_ fun tr rep => congrArg _ ?_
    · rw [retryHeld_busy, attempt_waitLogged]
    · rw [retryHeld_busy, retryHeld_busy, attempt_waitLogged, attempt_waitLogged]; rfl

theorem outputBlindAt_resetTimeout (s : State) : OutputBlindAt (fun x => .next (resetTimeout x)) s := by
  rcases Nat.lt_or_ge s.resetRetry s.cfg.resetMaxRetry with below | ceiling
  · refine outputBlindAt_of_silent rfl ?_ fun tr rep => congrArg _ ?_
    · rw [resetTimeout_of_lt below]
    · rw [resetTimeout_of_lt below, resetTimeout_of_lt (s := withOutputs tr rep s) below]; rfl
  · refine outputBlindAt_of_events [.log .resetCeiling, .connLost] rfl ?_ fun tr rep => congrArg _ ?_
    · rw [resetTimeout_of_ge ceiling]
    · rw [resetTimeout_of_ge ceiling, resetTimeout_of_ge (s := withOutputs tr rep s) ceiling]; rfl

theorem outputBlindAt_retxExpiry (e : Entry) (r : DriverReply) (s : State) : OutputBlindAt (retxExpiry e r) s := by
  rcases Nat.lt_or_ge e.retx s.cfg.maxRetx with below | ceiling
  · exact (outputBlindAt_sendEncoded _ _ _ r (countRetx s)).of_eq rfl (retxExpiry_of_lt r below) fun tr rep =>
      retxExpiry_of_lt (s := withOutputs tr rep s) r below
  · exact outputBlindAt_of_events [.log .retxCeiling] (retxExpiry_of_ge r ceiling) rfl fun tr rep =>
      retxExpiry_of_ge (s := withOutputs tr rep s) r ceiling

theorem outputBlindAt_takeAction (a : TxAction) (r : DriverReply) (s : State) : OutputBlindAt (takeAction a r) s := by
  cases a with
  | holdRetry h => exact outputBlindAt_retryHeld h r s
  | sendResetAck =>
    exact (outputBlindAt_sendEncoded cmdResetAck 0 [] r { s with rstAckPending := false }).of_eq rfl rfl
      fun _ _ => rfl
  | sendResetReq =>
    exact (outputBlindAt_sendEncoded cmdResetReq 0 [] r { s with reqPending := false, resetAge := 0 }).of_eq rfl rfl
      fun _ _ => rfl
  | resetTimeout => exact outputBlindAt_resetTimeout s
  | sendAck =>
    exact (outputBlindAt_sendEncoded cmdAck s.lastDeliveredSeq [] r { s with ackPending := false }).of_eq rfl rfl
      fun _ _ => rfl
  | expiry e => exact outputBlindAt_retxExpiry e r s
  | newData p rest =>
    exact (outputBlindAt_sendEncoded cmdData s.nextTxSeq p r (recordNewData p rest s)).of_eq rfl rfl fun _ _ => rfl

/-- R99: the arbitration reads no output. -/
theorem txAction_withOutputs (tr : List Event) (rep : Option SubmitReply) (s : State) :
    txAction (withOutputs tr rep s) = txAction s := rfl

theorem outputBlindAt_txStep (r : DriverReply) (s : State) : OutputBlindAt (txStep r) s := by
  cases chosen : txAction s with
  | none =>
    exact outputBlindAt_of_silent (txStep_of_none r chosen) rfl fun tr rep =>
      txStep_of_none r ((txAction_withOutputs tr rep s).trans chosen)
  | some a =>
    exact (outputBlindAt_takeAction a r s).of_eq rfl (txStep_of_action chosen) fun tr rep =>
      txStep_of_action ((txAction_withOutputs tr rep s).trans chosen)

/-! ### The RX step (R83 to R92) -/

theorem outputBlindAt_receiveData (q : Seq) (p : Bytes) (s : State) :
    OutputBlindAt (fun x => .next (receiveData q p x)) s := by
  rcases receiveData_cases q p s with ⟨hl, h⟩ | ⟨hl, h0, h⟩ | ⟨hl, behind, h⟩ | ⟨hl, ahead, h⟩
  · exact outputBlindAt_of_silent (congrArg _ h) rfl fun tr rep =>
      congrArg _ (receiveData_of_ne_est (s := withOutputs tr rep s) q p hl)
  · exact outputBlindAt_of_events [.deliver p] (congrArg _ h) rfl fun tr rep =>
      congrArg _ (receiveData_inOrder (s := withOutputs tr rep s) p hl h0)
  · exact outputBlindAt_of_silent (congrArg _ h) rfl fun tr rep =>
      congrArg _ (receiveData_duplicate (s := withOutputs tr rep s) p hl behind)
  · exact outputBlindAt_of_silent (congrArg _ h) rfl fun tr rep =>
      congrArg _ (receiveData_gap (s := withOutputs tr rep s) p hl ahead)

theorem outputBlindAt_receiveAck (a : Seq) (s : State) : OutputBlindAt (fun x => .next (receiveAck a x)) s := by
  by_cases hl : s.link = .est
  · exact outputBlindAt_of_silent (congrArg _ (receiveAck_of_est a hl)) rfl fun tr rep =>
      congrArg _ (receiveAck_of_est (s := withOutputs tr rep s) a hl)
  · exact outputBlindAt_of_silent (congrArg _ (receiveAck_of_ne_est a hl)) rfl fun tr rep =>
      congrArg _ (receiveAck_of_ne_est (s := withOutputs tr rep s) a hl)

theorem outputBlindAt_resetComplete (s : State) : OutputBlindAt (fun x => .next (resetComplete x)) s := by
  by_cases held : s.holdsResetReq = true
  · exact outputBlindAt_of_silent (congrArg _ (resetComplete_of_held held)) rfl fun tr rep =>
      congrArg _ (resetComplete_of_held (s := withOutputs tr rep s) held)
  · exact outputBlindAt_of_silent (congrArg _ (resetComplete_of_not_held held)) rfl fun tr rep =>
      congrArg _ (resetComplete_of_not_held (s := withOutputs tr rep s) held)

theorem outputBlindAt_receiveResetAck (s : State) : OutputBlindAt (fun x => .next (receiveResetAck x)) s := by
  by_cases hl : s.link = .await
  · exact (outputBlindAt_resetComplete s).of_eq rfl (congrArg _ (receiveResetAck_of_await hl)) fun tr rep =>
      congrArg _ (receiveResetAck_of_await (s := withOutputs tr rep s) hl)
  · exact outputBlindAt_of_silent (congrArg _ (receiveResetAck_of_ne_await hl)) rfl fun tr rep =>
      congrArg _ (receiveResetAck_of_ne_await (s := withOutputs tr rep s) hl)

theorem outputBlindAt_dropUnknown (s : State) : OutputBlindAt (fun x => .next (dropUnknown x)) s :=
  outputBlindAt_of_events [.log .unknownCmd] rfl rfl fun _ _ => rfl

theorem outputBlindAt_exec (i : Instr) (s : State) : OutputBlindAt (exec i) s := by
  cases i with
  | data q p => exact outputBlindAt_receiveData q p s
  | ack a p => exact outputBlindAt_receiveAck a s
  | resetReq q p => exact outputBlindAt_of_silent (t := peerReset s) rfl rfl fun _ _ => rfl
  | resetAck q p => exact outputBlindAt_receiveResetAck s
  | reserved4 | reserved5 | reserved6 | reserved7 => exact outputBlindAt_dropUnknown s

theorem outputBlindAt_rxStep (s : State) : OutputBlindAt rxStep s := by
  cases hq : s.rxq with
  | nil =>
    exact outputBlindAt_of_silent (rxStep_of_empty hq) rfl fun tr rep =>
      rxStep_of_empty (s := withOutputs tr rep s) hq
  | cons b rest =>
    cases b with
    | nil =>
      exact outputBlindAt_of_events [.log .malformedFrame] (rxStep_of_empty_head hq) rfl fun tr rep =>
        rxStep_of_empty_head (s := withOutputs tr rep s) hq
    | cons x xs =>
      have decoded := decode_cons x xs
      have run := outputBlindAt_exec (Instr.ofFields (headerCmd x) (headerSeq x) xs) { s with rxq := rest }
      refine run.of_eq rfl ?_ fun tr rep => ?_
      · rw [rxStep_of_frame hq decoded, exec_eq]
      · rw [rxStep_of_frame (s := withOutputs tr rep s) hq decoded, exec_eq]; rfl

/-! ### The inputs (R82, R94, R95, R109, R125) -/

/-- R94: only here does a step write the reply, and what it writes it has from the payload. -/
theorem outputBlindAt_submit (p : Bytes) (s : State) : OutputBlindAt (fun x => .next (submit p x)) s := by
  rcases submit_cases p s with ⟨long, h⟩ | ⟨fits, full, h⟩ | ⟨fits, room, h⟩ <;> intro t next <;> cases next
  · refine ⟨[.rejectOversizeFrame], by rw [h]; rfl, fun tr rep => ⟨some .oversizeFrame, congrArg _ ?_⟩⟩
    rw [h, submit_of_long long]; rfl
  · refine ⟨[], by rw [h, List.append_nil], fun tr rep => ⟨rep, congrArg _ ?_⟩⟩
    rw [h, submit_of_full (s := withOutputs tr rep s) fits full, List.append_nil]; rfl
  · refine ⟨[], by rw [h, List.append_nil]; rfl, fun tr rep => ⟨some .accepted, congrArg _ ?_⟩⟩
    rw [h, submit_of_room (s := withOutputs tr rep s) fits room, List.append_nil]; rfl

theorem outputBlindAt_resumeSubmit (i : Nat) (s : State) : OutputBlindAt (fun x => .next (resumeSubmit i x)) s := by
  cases waits : s.waiting[i]? with
  | none =>
    exact outputBlindAt_of_silent (congrArg _ (resumeSubmit_of_none waits)) rfl fun tr rep =>
      congrArg _ (resumeSubmit_of_none (s := withOutputs tr rep s) waits)
  | some p =>
    by_cases full : s.txq.length = s.cfg.txqDepth
    · exact outputBlindAt_of_silent (congrArg _ (resumeSubmit_of_full i full)) rfl fun tr rep =>
        congrArg _ (resumeSubmit_of_full (s := withOutputs tr rep s) i full)
    · intro t next
      cases next
      have queued := resumeSubmit_of_room waits full
      refine ⟨[], by rw [queued, List.append_nil]; rfl, fun tr rep => ⟨some .accepted, congrArg _ ?_⟩⟩
      rw [queued, resumeSubmit_of_room (s := withOutputs tr rep s) waits full, List.append_nil]; rfl

theorem outputBlindAt_rxFrame (b : Bytes) (s : State) : OutputBlindAt (fun x => .next (rxFrame b x)) s := by
  by_cases drop : mtu < b.length ∨ s.rxq.length = s.cfg.rxqDepth
  · exact outputBlindAt_of_silent (congrArg _ ((rxFrame_eq b s).trans (if_pos drop))) rfl fun tr rep =>
      congrArg _ ((rxFrame_eq b (withOutputs tr rep s)).trans (if_pos drop))
  · exact outputBlindAt_of_silent (congrArg _ ((rxFrame_eq b s).trans (if_neg drop))) rfl fun tr rep =>
      congrArg _ ((rxFrame_eq b (withOutputs tr rep s)).trans (if_neg drop))

theorem outputBlindAt_txReady (s : State) : OutputBlindAt (fun x => .next (txReady x)) s := by
  by_cases free : s.hold = none
  · exact outputBlindAt_of_silent (congrArg _ (txReady_of_free free)) rfl fun tr rep =>
      congrArg _ (txReady_of_free (s := withOutputs tr rep s) free)
  · exact outputBlindAt_of_silent (congrArg _ (txReady_of_held free)) rfl fun tr rep =>
      congrArg _ (txReady_of_held (s := withOutputs tr rep s) free)

theorem outputBlindAt_takeTurn (u : Turn) (s : State) : OutputBlindAt (takeTurn u) s := by
  cases u with
  | submit p => exact outputBlindAt_submit p s
  | resume i => exact outputBlindAt_resumeSubmit i s
  | rxFrame b => exact outputBlindAt_rxFrame b s
  | txReady => exact outputBlindAt_txReady s
  | tick => exact outputBlindAt_of_silent (t := tick s) rfl rfl fun _ _ => rfl
  | init => exact outputBlindAt_of_silent (t := initSession s) rfl rfl fun _ _ => rfl
  | rxs => exact outputBlindAt_rxStep s
  | txs r => exact outputBlindAt_txStep r s

/-- Settles O57: the turn's operation is output-blind, and neither the choice of the turn nor its spending reads an output. -/
theorem outputsNeverSteerTheBlock : Obligations.OutputsNeverSteerTheBlock := by
  intro s t h
  obtain ⟨legal, _⟩ := step_next h
  have blind : OutputBlindAt step s :=
    (outputBlindAt_takeTurn (nextTurn s) (spendTurn s)).of_eq rfl (step_of_legal legal) fun tr rep =>
      step_of_legal (s := withOutputs tr rep s) legal
  exact blind t h

end Sys2Proof.Machine
end
